-- ==== Sys2Proof/Word.lean ====
section
/-! DEFINITION. The word types of RNGE and nothing else. -/

namespace Sys2Proof

/-- A host-visible register or a bus word: 32 bits (00_scope R8). -/
abbrev Word := BitVec 32

/-- A generator operand: a 64-bit unsigned value (00_scope R8). -/
abbrev Dword := BitVec 64

/-- An 8-bit field: OPC, WIDTH, ERRCODE, ERRINFO (30_encoding R85, 10_state R34). -/
abbrev Octet := BitVec 8

end Sys2Proof
end

