-- ==== Sys2Proof/Config.lean ====
section
/-! DEFINITION. The parameters of 00_scope R7 (plain data, carried in State), their constraints and reference values,
and the free values the spec leaves open (constants without a body). -/

namespace Sys2Proof

/-- The parameters of RNGE (00_scope R7) and the aperture's base address (20_memory R62).
"A model takes each as an argument constrained as stated": the record is a constant field of State, so that a
statement about every state speaks of every parameter value (log entry 3).
DFT_TOL is the rational `dftTolNum / dftTolDen`. -/
structure Config where
  rngeBase   : Nat
  bitmemBits : Nat
  lcMMax     : Nat
  dftNMax    : Nat
  dftTolNum  : Nat
  dftTolDen  : Nat
  pmMult     : Nat
deriving DecidableEq, Repr

/-- The reference configuration (00_scope R7). RNGE_BASE is OPEN in the spec (92 D54): DESIGN CHOICE 0, log entry 3. -/
def Config.reference : Config where
  rngeBase   := 0
  bitmemBits := 8388608
  lcMMax     := 5000
  dftNMax    := 1048576
  dftTolNum  := 1
  dftTolDen  := 1048576
  pmMult     := 16807

/-- POLY_BITS = 32·ceil((LC_M_MAX+1)/32) (00_scope R7). -/
def Config.polyBits (c : Config) : Nat := 32 * ((c.lcMMax + 1 + 31) / 32)

/-- The constraints of 00_scope R7 on the parameters (log entry 17). -/
abbrev Config.valid (c : Config) : Prop :=
  (c.bitmemBits % 32 = 0 ∧ 1024 ≤ c.bitmemBits ∧ c.bitmemBits ≤ 2 ^ 23) ∧
  (500 ≤ c.lcMMax ∧ c.lcMMax ≤ 2 ^ 16) ∧
  (2 ≤ c.dftNMax ∧ c.dftNMax ≤ c.bitmemBits) ∧
  (0 < c.dftTolDen ∧ c.dftTolNum < c.dftTolDen) ∧
  (2 ≤ c.pmMult ∧ c.pmMult ≤ 2 ^ 31 - 2 ∧ (2 ^ 31 - 1) % c.pmMult < (2 ^ 31 - 1) / c.pmMult)

/-- FREE VALUE: the ELAPSED count of a completion (10_state R43: "a draw ... under no law"), at the value the
model's draw counter has (log entry 4). -/
opaque Config.elapsedDraw : Nat → Word

/-- FREE VALUE: the DFT verdict of component `k` inside the tolerance band, where the spec leaves it open (44 R201: "a draw, either
0 or 1, independently for each k and each command"), at the value the model's draw counter has (log entry 5). -/
opaque Config.dftVerdictDraw : Nat → Nat → Bool

end Sys2Proof
end

