-- ==== Sys2Proof/Syntax.lean ====
section
/-! DEFINITION. The eleven commands, one constructor per row of spec/opcode_table.json. -/

namespace Sys2Proof

/-- A command word's content (30_encoding R85, R92): each constructor carries exactly the fields its row marks `F`.
`lsbf` is bit 8 (R87), `sa` bit 9 (R88), `width` the WIDTH immediate (R89), a count, so a natural number
(well-formed below 256). -/
inductive Instr where
  /-- NOP (40 R110). -/
  | nop
  /-- PACK (40 R111). -/
  | pack (lsbf : Bool) (width : Nat)
  /-- GEN_LCG (41 R136). -/
  | genLcg (lsbf sa : Bool) (width : Nat)
  /-- GEN_PM (41 R138). -/
  | genPm (lsbf sa : Bool) (width : Nat)
  /-- GEN_PCG32 (41 R141). -/
  | genPcg32 (lsbf sa : Bool) (width : Nat)
  /-- GEN_SM64 (41 R144). -/
  | genSm64 (lsbf sa : Bool) (width : Nat)
  /-- GEN_LFSR (42 R170). -/
  | genLfsr (lsbf : Bool) (width : Nat)
  /-- RANK (43 R187). -/
  | rank
  /-- DFT (44 R202). -/
  | dft
  /-- BM (45 R218). -/
  | bm
  /-- LINCOMP (45 R221). -/
  | lincomp
deriving DecidableEq, Repr

/-- The WIDTH field of a command; 0 where its row reserves the field (30_encoding R92). -/
def Instr.width : Instr → Nat
  | .nop => 0
  | .pack _ w => w
  | .genLcg _ _ w => w
  | .genPm _ _ w => w
  | .genPcg32 _ _ w => w
  | .genSm64 _ _ w => w
  | .genLfsr _ w => w
  | .rank => 0
  | .dft => 0
  | .bm => 0
  | .lincomp => 0

end Sys2Proof
end

