-- ==== Sys2Proof/WellFormed.lean ====
section
/-! DEFINITION. Which terms of Instr are command words. -/

namespace Sys2Proof

/-- WIDTH is an 8-bit unsigned immediate (00_scope R8, 30_encoding R89): the one check a term can fail
(log entry 21). -/
def Instr.wf (i : Instr) : Bool := i.width < 256

end Sys2Proof
end

