-- ==== Sys2Proof/Decode.lean ====
section
/-! DEFINITION. Decoding a 32-bit command word (30_encoding R85 to R95), total and rejecting by name; after it the
encoder, from the same tables. -/

namespace Sys2Proof

/-- Why a word is no command (30_encoding R91). Neither is a stop of the machine: the issue step records the
configuration error in STATUS (60_exceptions R242). -/
inductive DecodeError where
  /-- CFG_UNKNOWN_OP: the OPC is not assigned. -/
  | unknownOp
  /-- CFG_RESERVED: a reserved bit of the word is set. -/
  | reserved
deriving DecidableEq, Repr

/-- What decoding a word gives. -/
inductive Decoded where
  | command (i : Instr)
  | error (e : DecodeError)
deriving DecidableEq, Repr

/-- One row of 30_encoding R92: a word is the command's when `w &&& mask = pattern`. -/
structure EncodingRow where
  opc     : Octet
  pattern : Word
  mask    : Word
deriving DecidableEq, Repr

/-- The table of 30_encoding R86 and R92 (spec/opcode_table.json). -/
def encodingTable : List EncodingRow :=
  [ { opc := 0x00, pattern := 0x00000000, mask := 0xFFFFFFFF },   -- NOP
    { opc := 0x01, pattern := 0x00000001, mask := 0xFF00FEFF },   -- PACK
    { opc := 0x10, pattern := 0x00000010, mask := 0xFF00FCFF },   -- GEN_LCG
    { opc := 0x11, pattern := 0x00000011, mask := 0xFF00FCFF },   -- GEN_PM
    { opc := 0x12, pattern := 0x00000012, mask := 0xFF00FCFF },   -- GEN_PCG32
    { opc := 0x13, pattern := 0x00000013, mask := 0xFF00FCFF },   -- GEN_SM64
    { opc := 0x18, pattern := 0x00000018, mask := 0xFF00FEFF },   -- GEN_LFSR
    { opc := 0x20, pattern := 0x00000020, mask := 0xFFFFFFFF },   -- RANK
    { opc := 0x28, pattern := 0x00000028, mask := 0xFFFFFFFF },   -- DFT
    { opc := 0x30, pattern := 0x00000030, mask := 0xFFFFFFFF },   -- BM
    { opc := 0x31, pattern := 0x00000031, mask := 0xFFFFFFFF } ]  -- LINCOMP

/-- OPC, bits 7:0 (30_encoding R85). -/
def wordOpc (w : Word) : Octet := w.extractLsb' 0 8

/-- LSBF, bit 8 (30_encoding R85). -/
def wordLsbf (w : Word) : Bool := w.getLsbD 8

/-- SA, bit 9 (30_encoding R85). -/
def wordSa (w : Word) : Bool := w.getLsbD 9

/-- WIDTH, bits 23:16 (30_encoding R85). -/
def wordWidth (w : Word) : Octet := w.extractLsb' 16 8

/-- The command an OPC and the three fields name (30_encoding R86, R92); none for an unassigned OPC. -/
def Instr.ofFields (opc : Octet) (lsbf sa : Bool) (width : Octet) : Option Instr :=
  match opc.toNat with
  | 0x00 => some .nop
  | 0x01 => some (.pack lsbf width.toNat)
  | 0x10 => some (.genLcg lsbf sa width.toNat)
  | 0x11 => some (.genPm lsbf sa width.toNat)
  | 0x12 => some (.genPcg32 lsbf sa width.toNat)
  | 0x13 => some (.genSm64 lsbf sa width.toNat)
  | 0x18 => some (.genLfsr lsbf width.toNat)
  | 0x20 => some .rank
  | 0x28 => some .dft
  | 0x30 => some .bm
  | 0x31 => some .lincomp
  | _ => none

/-- The row of the table for an OPC. -/
def encodingRow (opc : Octet) : Option EncodingRow := encodingTable.find? (fun r => r.opc == opc)

/-- 30_encoding R91: the OPC test comes first, then the reserved bits, then the fields. -/
def decode (w : Word) : Decoded :=
  match encodingRow (wordOpc w) with
  | none => .error .unknownOp
  | some row =>
    if w &&& row.mask == row.pattern then
      match Instr.ofFields (wordOpc w) (wordLsbf w) (wordSa w) (wordWidth w) with
      | some i => .command i
      | none => .error .unknownOp
    else .error .reserved

/-! The encoder. -/

/-- The OPC of each command (30_encoding R86). -/
def Instr.opcode : Instr → Octet
  | .nop => 0x00
  | .pack _ _ => 0x01
  | .genLcg _ _ _ => 0x10
  | .genPm _ _ _ => 0x11
  | .genPcg32 _ _ _ => 0x12
  | .genSm64 _ _ _ => 0x13
  | .genLfsr _ _ => 0x18
  | .rank => 0x20
  | .dft => 0x28
  | .bm => 0x30
  | .lincomp => 0x31

/-- The LSBF bit of a command; clear where its row reserves the bit (30_encoding R92). -/
def Instr.lsbf : Instr → Bool
  | .nop => false
  | .pack l _ => l
  | .genLcg l _ _ => l
  | .genPm l _ _ => l
  | .genPcg32 l _ _ => l
  | .genSm64 l _ _ => l
  | .genLfsr l _ => l
  | .rank => false
  | .dft => false
  | .bm => false
  | .lincomp => false

/-- The SA bit of a command; clear where its row reserves the bit (30_encoding R92). -/
def Instr.sa : Instr → Bool
  | .nop => false
  | .pack _ _ => false
  | .genLcg _ a _ => a
  | .genPm _ a _ => a
  | .genPcg32 _ a _ => a
  | .genSm64 _ a _ => a
  | .genLfsr _ _ => false
  | .rank => false
  | .dft => false
  | .bm => false
  | .lincomp => false

/-- "The assembled word is `OPC | LSBF<<8 | SA<<9 | WIDTH<<16`" (30_encoding R96). -/
def assemble (opc : Octet) (lsbf sa : Bool) (width : Octet) : Word :=
  opc.setWidth 32 ||| ((BitVec.ofBool lsbf).setWidth 32 <<< 8) ||| ((BitVec.ofBool sa).setWidth 32 <<< 9)
    ||| (width.setWidth 32 <<< 16)

/-- The word of a command. -/
def encode (i : Instr) : Word := assemble i.opcode i.lsbf i.sa (BitVec.ofNat 8 i.width)

/-- The instruction the decoder reads from the word `w` of `nbits` bits (bit 0 the least significant): the word as
the host writes it to CMD. Bits above `nbits` are 0. -/
def decodeTableWord (nbits w : Nat) : Option Instr :=
  match decode (BitVec.ofNat 32 (w % 2 ^ nbits)) with
  | .command i => some i
  | .error _ => none

end Sys2Proof
end

