-- ==== Sys2Proof/Machine/State.lean ====
section
/-! DEFINITION. All the state the spec gives RNGE (10_state R21, R23, R48 to R53), the model's own input and output
lists, the reasons a step can stop, and the state after a hardware reset (70_reset R270). -/

namespace Sys2Proof.Machine

/-! ## Memories -/

/-- The two bit memories (20_memory R60). -/
inductive Space where
  | bitmem
  | polymem
deriving DecidableEq, Repr

/-- A bit memory with its written marks (10_state R48, R49, R54): the marked bits, each with its bit address, addresses
strictly rising. An address that is not listed has no written mark, and so no value (log entry 14). -/
abbrev Memory := List (Nat × Bool)

/-- The canonical form: addresses strictly rising. (No entry can equal what an unlisted address reads as: an entry has
a value, an unlisted address has none.) -/
abbrev Memory.wf (m : Memory) : Prop := m.Pairwise (fun x y => x.1 < y.1)

/-! ## Registers -/

/-- STATUS.ERRCODE (60_exceptions R241). -/
inductive ErrCode where
  /-- 0x00 NONE. -/
  | none
  /-- 0x01 CFG_UNKNOWN_OP. -/
  | cfgUnknownOp
  /-- 0x02 CFG_RESERVED. -/
  | cfgReserved
  /-- 0x03 CFG_SEED_ABSENT. -/
  | cfgSeedAbsent
  /-- 0x04 CFG_PARAM. -/
  | cfgParam
  /-- 0x05 CFG_RANGE. -/
  | cfgRange
  /-- 0x10 EXT_SOURCE: reserved, never raised (60_exceptions R249). -/
  | extSource
  /-- 0x11 EXEC: reserved, never raised (60_exceptions R249). -/
  | execError
deriving DecidableEq, Repr

/-- The stored fields of STATUS (10_state R34). BUSY is not stored here: it mirrors the command in flight
(10_state R51) and is computed. Reserved bits read 0 and ignore writes (R46), so no field holds them. -/
structure Status where
  done    : Bool
  err     : Bool
  insuff  : Bool
  ovr     : Bool
  errCode : ErrCode
  errInfo : Octet
deriving DecidableEq, Repr

/-- The 16 operand registers (10_state R24 to R30, R56). -/
structure OperandRegs where
  seedLo : Word
  seedHi : Word
  seqLo  : Word
  seqHi  : Word
  lcgaLo : Word
  lcgaHi : Word
  lcgcLo : Word
  lcgcHi : Word
  lcgmLo : Word
  lcgmHi : Word
  nbits  : Word
  dst    : Word
  src    : Word
  len    : Word
  blk    : Word
  lfsrL  : Word
deriving DecidableEq, Repr

/-- RES0 to RES7 (10_state R41). A field a command's rule does not name is 0. -/
structure Results where
  res0 : Word := 0
  res1 : Word := 0
  res2 : Word := 0
  res3 : Word := 0
  res4 : Word := 0
  res5 : Word := 0
  res6 : Word := 0
  res7 : Word := 0
deriving DecidableEq, Repr

/-- The latched operand set OP (10_state R50), the command word's fields among it. -/
structure OpSet where
  seed  : Dword
  seq   : Dword
  lcga  : Dword
  lcgc  : Dword
  lcgm  : Dword
  nbits : Word
  dst   : Word
  src   : Word
  len   : Word
  blk   : Word
  lfsrL : Word
  opc   : Octet
  lsbf  : Bool
  sa    : Bool
  width : Octet
deriving DecidableEq, Repr

/-! ## The outside world -/

/-- What a host access does (20_memory R63). -/
inductive AccessKind where
  | read
  | write (v : Word)
deriving DecidableEq, Repr

/-- One host access: its address in the host's address space, its size in bytes, and what it does. Only an aligned
access of 4 bytes reaches a register or a window (20_memory R63). -/
structure Access where
  addr : Nat
  size : Nat
  kind : AccessKind
deriving DecidableEq, Repr

/-- What the outside world does next: a host access (10_state R22: the host's accesses are the program) or a hardware
reset (70_reset R270). -/
inductive Input where
  | access (a : Access)
  | hardReset
deriving DecidableEq, Repr

/-- What the host got back for one access. -/
inductive Response where
  /-- Data of a read at byte offset `off`. -/
  | data (off : Nat) (v : Word)
  /-- A write at byte offset `off` was answered. -/
  | written (off : Nat)
  /-- BusError(off, size) (20_memory R63). -/
  | busError (off size : Nat)
  /-- The address lies outside the aperture: the access is not RNGE's (log entry 12). -/
  | notSelected (addr : Nat)
deriving DecidableEq, Repr

/-- The two agents (10_state R20). -/
inductive Agent where
  | host
  | engine
deriving DecidableEq, Repr

/-! ## Reasons to stop -/

/-- The one model fault. -/
inductive Fault where
  /-- UninitRead(space, address) (10_state R54): raised by a command's completion or a host window read that meets
  a bit without a written mark. SAFE: the hardware goes on with an unspecified value. -/
  | uninitRead (space : Space) (addr : Nat)
deriving DecidableEq, Repr

/-- Reasons without a meaning. -/
inductive Refusal where
  /-- Raised by exec's arm of an instruction that has no meaning yet (none has none). SAFE. -/
  | notModelled (mnemonic : String)
deriving DecidableEq, Repr

/-! ## The state -/

/-- The state of RNGE (10_state R21), with the parameters, the host's side and the free values' counter. -/
structure State where
  /-- The parameters (00_scope R7), which no step changes. -/
  cfg       : Config
  /-- CTRL.IRQ_EN (10_state R32). -/
  irqEn     : Bool
  /-- STATUS less BUSY (10_state R34). -/
  status    : Status
  /-- The operand registers (10_state R24 to R30). -/
  regs      : OperandRegs
  /-- RES0 to RES7 (10_state R41). -/
  res       : Results
  /-- STATE_LO (10_state R42). -/
  stateLo   : Word
  /-- STATE_HI (10_state R42). -/
  stateHi   : Word
  /-- ELAPSED (10_state R43). -/
  elapsed   : Word
  /-- BITMEM with its marks (10_state R48, R54). -/
  bitmem    : Memory
  /-- POLYMEM with its marks (10_state R49, R54). -/
  polymem   : Memory
  /-- OP (10_state R50). -/
  op        : OpSet
  /-- The in-flight flag (10_state R51). -/
  flight    : Bool
  /-- The model's own: host accesses and hardware resets to come, oldest first (log entry 1). -/
  inputs    : List Input
  /-- The model's own: what the host got back, newest first (log entry 11). -/
  responses : List Response
  /-- The model's own: whose step comes first at each race of host and engine (log entry 2). -/
  turns     : List Agent
  /-- The model's own: how many completions have drawn free values (log entry 4). -/
  draws     : Nat
deriving DecidableEq, Repr

/-- STATUS after reset: 0 (10_state R23, R34). -/
def Status.reset : Status :=
  { done := false, err := false, insuff := false, ovr := false, errCode := .none, errInfo := 0 }

/-- The operand registers after reset: 0 (10_state R23). -/
def OperandRegs.reset : OperandRegs :=
  { seedLo := 0, seedHi := 0, seqLo := 0, seqHi := 0, lcgaLo := 0, lcgaHi := 0, lcgcLo := 0, lcgcHi := 0,
    lcgmLo := 0, lcgmHi := 0, nbits := 0, dst := 0, src := 0, len := 0, blk := 0, lfsrL := 0 }

/-- "OP is empty" (70_reset R270), held as all zero (log entry 8: nothing reads OP while no command is in flight). -/
def OpSet.empty : OpSet :=
  { seed := 0, seq := 0, lcga := 0, lcgc := 0, lcgm := 0, nbits := 0, dst := 0, src := 0, len := 0, blk := 0,
    lfsrL := 0, opc := 0, lsbf := false, sa := false, width := 0 }

/-- The machine right after a hardware reset (70_reset R270, 10_state R55), in the reference configuration. -/
def State.reset : State where
  cfg       := Config.reference
  irqEn     := false
  status    := Status.reset
  regs      := OperandRegs.reset
  res       := {}
  stateLo   := 0
  stateHi   := 0
  elapsed   := 0
  bitmem    := []
  polymem   := []
  op        := OpSet.empty
  flight    := false
  inputs    := []
  responses := []
  turns     := []
  draws     := 0

end Sys2Proof.Machine
end

