-- ==== Sys2Proof/Machine/Flags.lean ====
section
/-! DEFINITION. The STATUS and CTRL registers as words, the writes of their bits, and the command in flight that
STATUS.BUSY mirrors (10_state R32 to R39, R47, R51, R53). RNGE has no arithmetic flag (R47). -/

namespace Sys2Proof.Machine

/-- The ERRCODE values (60_exceptions R241). -/
def ErrCode.code : ErrCode → Octet
  | .none => 0x00
  | .cfgUnknownOp => 0x01
  | .cfgReserved => 0x02
  | .cfgSeedAbsent => 0x03
  | .cfgParam => 0x04
  | .cfgRange => 0x05
  | .extSource => 0x10
  | .execError => 0x11

/-- The command the latched OP holds for the engine: none for an unassigned OPC and none for NOP, which "never sets
BUSY" (10_state R35, 40 R110). -/
def OpSet.engineCommand (o : OpSet) : Option Instr :=
  match Instr.ofFields o.opc o.lsbf o.sa o.width with
  | some .nop => none
  | some i => some i
  | none => none

/-- The command in flight (10_state R51): the flag, and the command OP holds (log entry 9). -/
def State.inFlight (s : State) : Option Instr := if s.flight then s.op.engineCommand else none

/-- STATUS.BUSY: "a command is in flight" (10_state R34, R35). -/
def State.busy (s : State) : Bool := s.inFlight.isSome

/-- STATUS as a word (10_state R34): BUSY 0, DONE 1, ERR 2, INSUFF 3, OVR 4, ERRCODE 15:8, ERRINFO 23:16; reserved
bits read 0 (R46). -/
def State.statusWord (s : State) : Word :=
  BitVec.ofNat 32
    (s.busy.toNat + 2 * s.status.done.toNat + 4 * s.status.err.toNat + 8 * s.status.insuff.toNat
      + 16 * s.status.ovr.toNat + 2 ^ 8 * s.status.errCode.code.toNat + 2 ^ 16 * s.status.errInfo.toNat)

/-- CTRL as a word (10_state R32): IRQ_EN in bit 0; SRST and the reserved bits read 0. -/
def State.ctrlWord (s : State) : Word := BitVec.ofNat 32 s.irqEn.toNat

/-- The interrupt output: IRQ = CTRL.IRQ_EN ∧ STATUS.DONE (10_state R53, 60_exceptions R251). -/
def State.irq (s : State) : Bool := s.irqEn && s.status.done

/-- A host write of `v` to STATUS (10_state R34): bit 1 clears DONE; bit 2 clears ERR, ERRCODE and ERRINFO; bit 3 clears
INSUFF; bit 4 clears OVR; every other bit is ignored. It is the acknowledgement of 60_exceptions R246. -/
def Status.acknowledge (v : Word) (f : Status) : Status where
  done    := f.done && !v.getLsbD 1
  err     := f.err && !v.getLsbD 2
  insuff  := f.insuff && !v.getLsbD 3
  ovr     := f.ovr && !v.getLsbD 4
  errCode := if v.getLsbD 2 then .none else f.errCode
  errInfo := if v.getLsbD 2 then 0 else f.errInfo

/-- The clears of a performed issue (10_state R36): DONE, ERR, INSUFF, ERRCODE and ERRINFO; OVR stays. -/
def Status.issueClear (f : Status) : Status :=
  { f with done := false, err := false, insuff := false, errCode := .none, errInfo := 0 }

/-- A configuration error (10_state R37). -/
def Status.setError (code : ErrCode) (info : Octet) (f : Status) : Status :=
  { f with done := true, err := true, errCode := code, errInfo := info }

/-- The InsufficientData outcome (10_state R38, 60_exceptions R247). -/
def Status.setInsufficient (f : Status) : Status := { f with done := true, insuff := true }

/-- The end of a command: DONE (10_state R36). -/
def Status.setDone (f : Status) : Status := { f with done := true }

/-- A refused access (10_state R39). -/
def Status.setOverrun (f : Status) : Status := { f with ovr := true }

end Sys2Proof.Machine
end

