-- ==== Sys2Proof/Machine/Operands.lean ====
section
/-! DEFINITION. The operand forms of the commands: the latched set OP (10_state R50), the register pairs (00_scope R11),
the defaults that a field or register of 0 selects, and the issue checks (60_exceptions R242). -/

namespace Sys2Proof.Machine

/-! ## Latching -/

/-- REG64[X] = REG[X_HI]·2^32 + REG[X_LO] (00_scope R11). -/
def regPair (hi lo : Word) : Dword := hi ++ lo

/-- OP, copied from the operand registers and the command word (10_state R50). -/
def OpSet.latch (r : OperandRegs) (w : Word) : OpSet where
  seed  := regPair r.seedHi r.seedLo
  seq   := regPair r.seqHi r.seqLo
  lcga  := regPair r.lcgaHi r.lcgaLo
  lcgc  := regPair r.lcgcHi r.lcgcLo
  lcgm  := regPair r.lcgmHi r.lcgmLo
  nbits := r.nbits
  dst   := r.dst
  src   := r.src
  len   := r.len
  blk   := r.blk
  lfsrL := r.lfsrL
  opc   := wordOpc w
  lsbf  := wordLsbf w
  sa    := wordSa w
  width := wordWidth w

/-! ## Operand forms -/

/-- The LCG modulus (10_state R28): LCGM = 0 encodes 2^64. -/
def OpSet.modulus (o : OpSet) : Nat := if o.lcgm.toNat = 0 then 2 ^ 64 else o.lcgm.toNat

/-- bitlen(m), the least k with m < 2^k, of a positive m (00_scope R15). -/
def bitlen (m : Nat) : Nat := Nat.log2 m + 1

/-- The chunk width: WIDTH, or the command's default when WIDTH is 0 (41 R131). -/
def chunkWidth (width default : Nat) : Nat := if width = 0 then default else width

/-- The block length M: BLK, or 500 when BLK is 0 (45 R219; LC_M_DEFAULT, 00_scope R7). -/
def OpSet.blockLength (o : OpSet) : Nat := if o.blk.toNat = 0 then 500 else o.blk.toNat

/-- (initstate, sequence) of GEN_PCG32: (1, 1) when the seed is absent (30_encoding R88). -/
def OpSet.pcgSeed (o : OpSet) (sa : Bool) : Nat × Nat := if sa then (1, 1) else (o.seed.toNat, o.seq.toNat)

/-- The seed of GEN_SM64: 1 when the seed is absent (30_encoding R88). -/
def OpSet.smSeed (o : OpSet) (sa : Bool) : Nat := if sa then 1 else o.seed.toNat

/-! ## Issue checks -/

/-- One check of a command's rule: whether it fails, and what the error reports (60_exceptions R241, R242). -/
structure Check where
  fails : Bool
  code  : ErrCode
  info  : Octet
deriving DecidableEq, Repr

/-- "SA = 1 raises `CFG_SEED_ABSENT` with ERRINFO = 0x08" (41 R133). -/
def seedPresent (sa : Bool) : Check := { fails := sa, code := .cfgSeedAbsent, info := 0x08 }

/-- A bound on an operand value: CFG_PARAM with the operand's register index (60_exceptions R241). -/
def atMost (v bound : Nat) (info : Octet) : Check := { fails := decide (bound < v), code := .cfgParam, info := info }

/-- The source region [SRC, SRC + n) lies in BITMEM, as an unbounded sum: CFG_RANGE, ERRINFO 0x14 (60_exceptions
R241, R242). -/
def srcInRange (cfg : Config) (o : OpSet) (n : Nat) : Check :=
  { fails := decide (cfg.bitmemBits < o.src.toNat + n), code := .cfgRange, info := 0x14 }

/-- The destination region [DST, DST + n) lies in BITMEM, as an unbounded sum: CFG_RANGE, ERRINFO 0x13 (60_exceptions
R241, R242). -/
def dstInRange (cfg : Config) (o : OpSet) (n : Nat) : Check :=
  { fails := decide (cfg.bitmemBits < o.dst.toNat + n), code := .cfgRange, info := 0x13 }

/-- The first check of a list that fails, in the list's order (60_exceptions R243). -/
def firstFailure (checks : List Check) : Option Check := checks.find? Check.fails

end Sys2Proof.Machine
end

