-- ==== Sys2Proof/Machine/Ops.lean ====
section
/-! DEFINITION. The operations every meaning is written over: bit sequences, the two bit memories, the issue of a
command and its four endings, and the resets. -/

namespace Sys2Proof.Machine

/-! ## Bit sequences -/

/-- pack(v, w, msb_first) of 00_scope R14: bits w-1 down to 0 of `v`, or bits 0 up to w-1. -/
def pack (v w : Nat) (msbFirst : Bool) : List Bool :=
  if msbFirst then (List.range w).reverse.map v.testBit else (List.range w).map v.testBit

/-- The unsigned integer whose bit i is element i. -/
def natOfBits : List Bool → Nat
  | [] => 0
  | b :: bs => b.toNat + 2 * natOfBits bs

/-- The 32-bit word whose bit b is element b (20_memory R65, R66). -/
def wordOfBits (bs : List Bool) : Word := BitVec.ofNat 32 (natOfBits bs)

/-- The 32 bits of a word, bit 0 first (20_memory R65, R66). -/
def bitsOfWord (v : Word) : List Bool := (List.range 32).map v.getLsbD

/-- The first `count` consecutive blocks of `size` bits. -/
def blocksOf (size : Nat) : Nat → List Bool → List (List Bool)
  | 0, _ => []
  | count + 1, bs => bs.take size :: blocksOf size count (bs.drop size)

/-- Exclusive or of c_1 & p_0, c_2 & p_1, …: the feedback of a shift register with coefficients `c` over the past `p`,
the most recent bit first (42 R170, 45 R216). The empty xor is 0. -/
def feedback (c p : List Bool) : Bool := (List.zipWith and c p).foldr xor false

/-! ## Bit memories -/

/-- BitRead(a) (00_scope R12): the bit at address `a`, none where it has no written mark (10_state R54). -/
def Memory.read (m : Memory) (a : Nat) : Option Bool := m.lookup a

/-- The bits `bs` at consecutive addresses from `a` (20_memory R69). -/
def Memory.cells (a : Nat) : List Bool → Memory
  | [] => []
  | b :: bs => (a, b) :: Memory.cells (a + 1) bs

/-- BitWriteSeq(a, bs) (00_scope R12): writes bs[i] to bit a+i and marks it (10_state R54). -/
def Memory.writeSeq (m : Memory) (a : Nat) (bs : List Bool) : Memory :=
  m.filter (fun c => c.1 < a) ++ (Memory.cells a bs ++ m.filter (fun c => a + bs.length ≤ c.1))

/-- BitReadSeq(a, n) (00_scope R12): the `n` bits from `a`, or the lowest address of them without a written mark.
It walks the rising list once. -/
def Memory.readSeq : Memory → Nat → Nat → Except Nat (List Bool)
  | _, _, 0 => .ok []
  | [], a, _ + 1 => .error a
  | c :: m, a, n + 1 =>
    if c.1 < a then Memory.readSeq m a (n + 1)
    else if c.1 = a then
      match Memory.readSeq m (a + 1) n with
      | .ok bs => .ok (c.2 :: bs)
      | .error e => .error e
    else .error a

/-- Clears the written marks of the `n` bits from `a` (70_reset R273). -/
def Memory.unmark (m : Memory) (a n : Nat) : Memory := m.filter (fun c => !(decide (a ≤ c.1) && decide (c.1 < a + n)))

/-- The memory of a space. -/
def State.mem (s : State) : Space → Memory
  | .bitmem => s.bitmem
  | .polymem => s.polymem

/-- The capacity of a space in bits (20_memory R60). -/
def capacityOf (c : Config) : Space → Nat
  | .bitmem => c.bitmemBits
  | .polymem => c.polyBits

/-- `s` with another memory in a space. -/
def State.setMem (s : State) (sp : Space) (m : Memory) : State :=
  match sp with
  | .bitmem => { s with bitmem := m }
  | .polymem => { s with polymem := m }

/-- Goes on with the `n` bits from `a` of a space, or stops with the model fault UninitRead (10_state R54;
log entry 6). -/
def withBits (sp : Space) (a n : Nat) (s : State) (k : List Bool → Host.Outcome State Fault Refusal) :
    Host.Outcome State Fault Refusal :=
  match (s.mem sp).readSeq a n with
  | .ok bs => k bs
  | .error addr => .fault (.uninitRead sp addr)

/-! ## Issue and the endings of a command (60_exceptions R240, R242) -/

/-- The start of a performed issue of the word `w`: the clears of 10_state R36, then OP is latched (R50). -/
def State.prepare (w : Word) (s : State) : State :=
  { s with
    status := s.status.issueClear
    res := {}
    stateLo := 0
    stateHi := 0
    elapsed := 0
    op := OpSet.latch s.regs w }

/-- fail(code, info) of 60_exceptions R242, the one way an error is taken: ERR, ERRCODE, ERRINFO and DONE are set and no
command is in flight. It is the "trap entry" of this hardware; no control is transferred (R245). -/
def State.fail (code : ErrCode) (info : Octet) (s : State) : State :=
  { s with status := s.status.setError code info, flight := false }

/-- insufficient() of 60_exceptions R247: INSUFF and DONE are set and no command is in flight. -/
def State.insufficient (s : State) : State := { s with status := s.status.setInsufficient, flight := false }

/-- BUSY <- 1: the engine now has the command's completion step (60_exceptions R242, 10_state R35). -/
def State.accept (s : State) : State := { s with flight := true }

/-- NOP's ending at issue (40 R110): DONE is set and no command is in flight. -/
def State.endAtIssue (s : State) : State := { s with status := s.status.setDone, flight := false }

/-- issue(w) of 60_exceptions R242 for a command that decodes: the clears and the latch, the checks in order, the
InsufficientData ending, else BUSY. -/
def issue (i : Instr) (checks : Config → OpSet → List Check) (short : OpSet → Bool) (s : State) :
    Host.Outcome State Fault Refusal :=
  let t := s.prepare (encode i)
  match firstFailure (checks t.cfg t.op) with
  | some c => .next (t.fail c.code c.info)
  | none => if short t.op then .next t.insufficient else .next t.accept

/-- What a completion writes (10_state R51): a result register or STATE not named is 0, as it is from issue until
completion (10_state R36, R41, R42; log entry 16); the memories are given whole. -/
structure Effects where
  res     : Results := {}
  state   : Nat := 0
  elapsed : Word
  bitmem  : Memory
  polymem : Memory

/-- The completion step (10_state R51): the effects, then BUSY <- 0 and DONE <- 1; the free values of this completion
are used up. -/
def State.complete (e : Effects) (s : State) : State :=
  { s with
    res := e.res
    stateLo := BitVec.ofNat 32 (e.state % 2 ^ 32)
    stateHi := BitVec.ofNat 32 (e.state / 2 ^ 32 % 2 ^ 32)
    elapsed := e.elapsed
    bitmem := e.bitmem
    polymem := e.polymem
    flight := false
    status := s.status.setDone
    draws := s.draws + 1 }

/-- A count as a result register. -/
def resultWord (n : Nat) : Word := BitVec.ofNat 32 n

/-- The ELAPSED value of this completion: a free value (10_state R43). -/
def State.elapsedDraw (s : State) : Word := Config.elapsedDraw s.draws

/-- The ELAPSED value of a generator command: 0 when it emits no bit, else a free value (10_state R43). -/
def State.generatorElapsed (s : State) : Word := if s.op.nbits.toNat = 0 then 0 else s.elapsedDraw

/-! ## Resets (70_reset R270 to R273) -/

/-- How many bits from OP.DST an abort of a BITMEM-writing command leaves unspecified (70_reset R273): NBITS "for PACK
and the five generators". -/
def abortedBits (i : Instr) (o : OpSet) : Nat :=
  match i with
  | .nop => 0
  | .pack _ _ => o.nbits.toNat
  | .genLcg _ _ _ => o.nbits.toNat
  | .genPm _ _ _ => o.nbits.toNat
  | .genPcg32 _ _ _ => o.nbits.toNat
  | .genSm64 _ _ _ => o.nbits.toNat
  | .genLfsr _ _ => o.nbits.toNat
  | .rank => 0
  | .dft => 0
  | .bm => 0
  | .lincomp => 0

/-- How many bits of POLYMEM an abort leaves unspecified (70_reset R273): bits 0..LEN for BM. -/
def abortedCoeffs (i : Instr) (o : OpSet) : Nat :=
  match i with
  | .nop => 0
  | .pack _ _ => 0
  | .genLcg _ _ _ => 0
  | .genPm _ _ _ => 0
  | .genPcg32 _ _ _ => 0
  | .genSm64 _ _ _ => 0
  | .genLfsr _ _ => 0
  | .rank => 0
  | .dft => 0
  | .bm => o.len.toNat + 1
  | .lincomp => 0

/-- The abort of the command in flight, if any: the written marks of its destination region are cleared (70_reset
R273). -/
def State.abort (s : State) : State :=
  match s.inFlight with
  | some i =>
    { s with
      bitmem := s.bitmem.unmark s.op.dst.toNat (abortedBits i s.op)
      polymem := s.polymem.unmark 0 (abortedCoeffs i s.op) }
  | none => s

/-- Every register and the hidden command state at the values of 70_reset R270; the memories as they are. -/
def State.clearRegisters (s : State) : State :=
  { s with
    irqEn := false
    status := Status.reset
    regs := OperandRegs.reset
    res := {}
    stateLo := 0
    stateHi := 0
    elapsed := 0
    op := OpSet.empty
    flight := false }

/-- The soft reset (70_reset R272): the command in flight is aborted, every register takes its reset value, and the
memories keep their bits and marks but for the aborted region. -/
def State.softReset (s : State) : State := s.abort.clearRegisters

/-- A hardware reset (70_reset R270): the registers take their reset values and no bit is marked. The parameters, the
host's side and the free values' counter are not RNGE's to reset (log entry 18). -/
def State.hardReset (s : State) : State := { s.clearRegisters with bitmem := [], polymem := [] }

end Sys2Proof.Machine
end

