-- ==== Sys2Proof/Machine/Bus.lean ====
section
/-! DEFINITION. The host's side of RNGE but for the CMD write: the register map (10_state R23), register reads and
writes, the two memory windows (20_memory R65 to R67), and the decoding of the aperture (20_memory R61, R63). -/

namespace Sys2Proof.Machine

/-! ## The register map (10_state R23) -/

/-- The 16 operand registers by name (10_state R56). -/
inductive OperandReg where
  | seedLo | seedHi | seqLo | seqHi | lcgaLo | lcgaHi | lcgcLo | lcgcHi | lcgmLo | lcgmHi
  | nbits | dst | src | len | blk | lfsrL
deriving DecidableEq, Repr

/-- The host-visible registers by name (10_state R23). -/
inductive Reg where
  | id | version | ctrl | status | cmd
  | operand (r : OperandReg)
  | res0 | res1 | res2 | res3 | res4 | res5 | res6 | res7
  | stateLo | stateHi | elapsed
  | capBitmem | capLcm | capDftn | capPmmult
deriving DecidableEq, Repr

/-- Offsets 0x000 to 0x010 (10_state R23). -/
def controlMap : List (Nat × Reg) :=
  [(0x000, .id), (0x004, .version), (0x008, .ctrl), (0x00C, .status), (0x010, .cmd)]

/-- Offsets 0x020 to 0x05C (10_state R23). -/
def operandMap : List (Nat × Reg) :=
  [ (0x020, .operand .seedLo), (0x024, .operand .seedHi), (0x028, .operand .seqLo), (0x02C, .operand .seqHi),
    (0x030, .operand .lcgaLo), (0x034, .operand .lcgaHi), (0x038, .operand .lcgcLo), (0x03C, .operand .lcgcHi),
    (0x040, .operand .lcgmLo), (0x044, .operand .lcgmHi), (0x048, .operand .nbits), (0x04C, .operand .dst),
    (0x050, .operand .src), (0x054, .operand .len), (0x058, .operand .blk), (0x05C, .operand .lfsrL) ]

/-- Offsets 0x080 to 0x0CC (10_state R23). -/
def resultMap : List (Nat × Reg) :=
  [ (0x080, .res0), (0x084, .res1), (0x088, .res2), (0x08C, .res3),
    (0x090, .res4), (0x094, .res5), (0x098, .res6), (0x09C, .res7),
    (0x0A0, .stateLo), (0x0A4, .stateHi), (0x0A8, .elapsed),
    (0x0C0, .capBitmem), (0x0C4, .capLcm), (0x0C8, .capDftn), (0x0CC, .capPmmult) ]

/-- The register at a byte offset of the REG window; none where the offset is unmapped (10_state R23, R45). -/
def regAt (off : Nat) : Option Reg := (controlMap ++ operandMap ++ resultMap).lookup off

/-- The value of an operand register. -/
def OperandRegs.get (r : OperandRegs) : OperandReg → Word
  | .seedLo => r.seedLo
  | .seedHi => r.seedHi
  | .seqLo => r.seqLo
  | .seqHi => r.seqHi
  | .lcgaLo => r.lcgaLo
  | .lcgaHi => r.lcgaHi
  | .lcgcLo => r.lcgcLo
  | .lcgcHi => r.lcgcHi
  | .lcgmLo => r.lcgmLo
  | .lcgmHi => r.lcgmHi
  | .nbits => r.nbits
  | .dst => r.dst
  | .src => r.src
  | .len => r.len
  | .blk => r.blk
  | .lfsrL => r.lfsrL

/-- Stores a value in an operand register: all bits are writable (10_state R24 to R30). -/
def OperandRegs.set (r : OperandRegs) (v : Word) : OperandReg → OperandRegs
  | .seedLo => { r with seedLo := v }
  | .seedHi => { r with seedHi := v }
  | .seqLo => { r with seqLo := v }
  | .seqHi => { r with seqHi := v }
  | .lcgaLo => { r with lcgaLo := v }
  | .lcgaHi => { r with lcgaHi := v }
  | .lcgcLo => { r with lcgcLo := v }
  | .lcgcHi => { r with lcgcHi := v }
  | .lcgmLo => { r with lcgmLo := v }
  | .lcgmHi => { r with lcgmHi := v }
  | .nbits => { r with nbits := v }
  | .dst => { r with dst := v }
  | .src => { r with src := v }
  | .len => { r with len := v }
  | .blk => { r with blk := v }
  | .lfsrL => { r with lfsrL := v }

/-- What a register reads as. Reads have no side effect (20_memory R72). -/
def State.readReg (s : State) : Reg → Word
  | .id => 0x524E4745                                       -- 10_state R31
  | .version => 0x00000007                                  -- 10_state R31
  | .ctrl => s.ctrlWord                                     -- 10_state R32
  | .status => s.statusWord                                 -- 10_state R34
  | .cmd => 0                                               -- 10_state R40
  | .operand r => s.regs.get r                              -- 10_state R24 to R30
  | .res0 => s.res.res0                                     -- 10_state R41
  | .res1 => s.res.res1
  | .res2 => s.res.res2
  | .res3 => s.res.res3
  | .res4 => s.res.res4
  | .res5 => s.res.res5
  | .res6 => s.res.res6
  | .res7 => s.res.res7
  | .stateLo => s.stateLo                                   -- 10_state R42
  | .stateHi => s.stateHi
  | .elapsed => s.elapsed                                   -- 10_state R43
  | .capBitmem => BitVec.ofNat 32 s.cfg.bitmemBits          -- 10_state R44
  | .capLcm => BitVec.ofNat 32 s.cfg.lcMMax
  | .capDftn => BitVec.ofNat 32 s.cfg.dftNMax
  | .capPmmult => BitVec.ofNat 32 s.cfg.pmMult

/-- A host write of `v` to CTRL (10_state R33): bit 1 performs the soft reset, else IRQ_EN takes bit 0. -/
def State.writeCtrl (v : Word) (s : State) : State :=
  if v.getLsbD 1 then s.softReset else { s with irqEn := v.getLsbD 0 }

/-- A host write of `v` to STATUS (10_state R34), "performed even while BUSY = 1". -/
def State.writeStatus (v : Word) (s : State) : State := { s with status := s.status.acknowledge v }

/-- A host write of `v` to an operand register; OP is not changed (10_state R50, 70_reset R278). -/
def State.writeOperand (r : OperandReg) (v : Word) (s : State) : State := { s with regs := s.regs.set v r }

/-- A refused access (10_state R39): only OVR is set. -/
def State.refuse (s : State) : State := { s with status := s.status.setOverrun }

/-- Records what the host got back (log entry 11). -/
def State.respond (r : Response) (s : State) : State := { s with responses := r :: s.responses }

/-! ## The windows (20_memory R67) -/

/-- A window read of word `j` at byte offset `off`: refused while BUSY, 0 past the capacity, else the 32 bits, with
the model fault UninitRead at a bit without a mark. -/
def readWindow (sp : Space) (off j : Nat) (s : State) : Host.Outcome State Fault Refusal :=
  if s.busy then .next (s.refuse.respond (.data off 0))
  else if capacityOf s.cfg sp ≤ 32 * j then .next (s.respond (.data off 0))
  else withBits sp (32 * j) 32 s fun bs => .next (s.respond (.data off (wordOfBits bs)))

/-- A window write of `v` to word `j` at byte offset `off`: refused while BUSY, ignored past the capacity, else the 32
bits are written and marked. -/
def writeWindow (sp : Space) (off j : Nat) (v : Word) (s : State) : State :=
  if s.busy then s.refuse.respond (.written off)
  else if capacityOf s.cfg sp ≤ 32 * j then s.respond (.written off)
  else (s.setMem sp ((s.mem sp).writeSeq (32 * j) (bitsOfWord v))).respond (.written off)

/-! ## The aperture (20_memory R60 to R63) -/

/-- Where an offset of the aperture leads (20_memory R61). -/
inductive Region where
  | regWindow
  | unmapped
  | window (sp : Space) (j : Nat)
deriving DecidableEq, Repr

/-- The size of the aperture: 2 MiB (20_memory R60). -/
def apertureSize : Nat := 0x200000

/-- The decoding of 20_memory R61 for an offset in the aperture. -/
def regionAt (off : Nat) : Region :=
  if off < 0x001000 then .regWindow
  else if off < 0x080000 then .unmapped
  else if off < 0x100000 then .window .polymem ((off - 0x080000) / 4)
  else .window .bitmem ((off - 0x100000) / 4)

/-- What an access is for RNGE, before its effect. -/
inductive Target where
  /-- Not an address of the aperture (log entry 12). -/
  | outside
  /-- A bus error (20_memory R63). -/
  | malformed (off : Nat)
  /-- The register at `off`, or none where the offset is unmapped (20_memory R64, 10_state R45). -/
  | register (off : Nat) (r : Option Reg)
  /-- An offset of the aperture that is unmapped (20_memory R61). -/
  | unmapped (off : Nat)
  /-- Word `j` of a window (20_memory R65, R66). -/
  | window (off : Nat) (sp : Space) (j : Nat)
deriving DecidableEq, Repr

/-- The decoding of an access: the aperture starts at RNGE_BASE (20_memory R62); only an aligned access of 4 bytes is
admitted (R63). -/
def target (cfg : Config) (a : Access) : Target :=
  if a.addr < cfg.rngeBase ∨ cfg.rngeBase + apertureSize ≤ a.addr then .outside
  else
    let off := a.addr - cfg.rngeBase
    if a.size ≠ 4 ∨ off % 4 ≠ 0 then .malformed off
    else match regionAt off with
      | .regWindow => .register off (regAt off)
      | .unmapped => .unmapped off
      | .window sp j => .window off sp j

/-- A host write of `v` to a register other than CMD. Read-only registers ignore it (10_state R46). -/
def State.writeReg (s : State) (v : Word) : Reg → State
  | .ctrl => s.writeCtrl v
  | .status => s.writeStatus v
  | .operand r => s.writeOperand r v
  | .id => s
  | .version => s
  | .cmd => s
  | .res0 => s
  | .res1 => s
  | .res2 => s
  | .res3 => s
  | .res4 => s
  | .res5 => s
  | .res6 => s
  | .res7 => s
  | .stateLo => s
  | .stateHi => s
  | .elapsed => s
  | .capBitmem => s
  | .capLcm => s
  | .capDftn => s
  | .capPmmult => s

/-! ## The host's admitted accesses, as inputs -/

/-- The host's aligned 32-bit read of byte offset `off` of the aperture (20_memory R63). -/
def hostRead (cfg : Config) (off : Nat) : Input := .access { addr := cfg.rngeBase + off, size := 4, kind := .read }

/-- The host's aligned 32-bit write of `v` to byte offset `off` of the aperture (20_memory R63). -/
def hostWrite (cfg : Config) (off : Nat) (v : Word) : Input :=
  .access { addr := cfg.rngeBase + off, size := 4, kind := .write v }

/-- The byte offset of word `j` of a window (20_memory R65, R66). -/
def windowOffset (sp : Space) (j : Nat) : Nat :=
  match sp with
  | .polymem => 0x080000 + 4 * j
  | .bitmem => 0x100000 + 4 * j

/-- Byte lane `k` (0 to 3) of a bus word: bits 8k+7 .. 8k, little-endian (20_memory R68). -/
def byteLane (v : Word) (k : Nat) : Octet := v.extractLsb' (8 * k) 8

end Sys2Proof.Machine
end

