-- ==== Sys2Proof/Machine/Control.lean ====
section
/-! DEFINITION. NOP and PACK (spec/40_control_pack.md). -/

namespace Sys2Proof.Machine

/-- NOP (40 R110): at issue, the issue clears and DONE; the engine takes no step. -/
def execNop (s : State) : Host.Outcome State Fault Refusal := .next (s.prepare (encode .nop)).endAtIssue

/-- PACK's check at issue (40 R111): `dst + w > BITMEM_BITS` raises CFG_RANGE, ERRINFO 0x13. -/
def packChecks (width : Nat) (cfg : Config) (o : OpSet) : List Check := [dstInRange cfg o width]

/-- PACK (40 R111): packs the 64-bit SEED into `width` bits at DST. -/
def execPack (lsbf : Bool) (width : Nat) (s : State) : Host.Outcome State Fault Refusal :=
  if s.busy then
    .next (s.complete
      { res := { res0 := resultWord width }
        elapsed := s.elapsedDraw
        bitmem := s.bitmem.writeSeq s.op.dst.toNat (pack s.op.seed.toNat width (!lsbf))
        polymem := s.polymem })
  else issue (.pack lsbf width) (packChecks width) (fun _ => false) s

end Sys2Proof.Machine
end

