-- ==== Sys2Proof/Machine/Dft.lean ====
section
/-! DEFINITION. The DFT spectral analyzer DFT (spec/44_spectral_dft.md). The verdict of a component is the exact
comparison of 44 R201: its squared magnitude P_k and the bounds of the tolerance band are enclosed by integers, at rising
precision until the enclosures part (log entry 5). -/

namespace Sys2Proof.Machine

/-- DFT's checks in the order of 44 R202. -/
def dftChecks (cfg : Config) (o : OpSet) : List Check :=
  [atMost o.len.toNat cfg.dftNMax 0x15, srcInRange cfg o o.len.toNat]

/-- K = n div 2, the number of components counted (44 R200). -/
def componentCount (o : OpSet) : Nat := o.len.toNat / 2

/-- x_j = 2·ε_j - 1 (44 R200). -/
def signOfBit (b : Bool) : Int := if b then 1 else -1

/-- The circular autocorrelation r_d = Σ_j x_j·x_{(j+d) mod n} of the signs. By 44 R200,
P_k = |S_k|² = Σ_{d<n} r_d·cos(2π·d·k/n), because S_k·conj(S_k) is that sum. -/
def autocorrelation (x : List Int) (d : Nat) : Int := (List.zipWith (· * ·) x (x.rotate d)).sum

/-! ### Fixed-point enclosures, in units of 2^-p (log entry 5) -/

/-- 2^p/((2i+1)·x^(2i+1)), rounded down: term i of the series of arctan(1/x) and artanh(1/x). -/
def seriesTerm (p x i : Nat) : Int := ((2 ^ p / ((2 * i + 1) * x ^ (2 * i + 1)) : Nat) : Int)

/-- 2^p·arctan(1/x) up to p + 1, for x ≥ 2. -/
def arctanFixed (p x : Nat) : Int := ((List.range p).map fun i => (-1) ^ i * seriesTerm p x i).sum

/-- 2^p·artanh(1/x) up to p + 1, for x ≥ 3. -/
def artanhFixed (p x : Nat) : Int := ((List.range p).map (seriesTerm p x)).sum

/-- 2^p·π up to 20·(p + 1): π = 16·arctan(1/5) - 4·arctan(1/239). -/
def piFixed (p : Nat) : Int := 16 * arctanFixed p 5 - 4 * arctanFixed p 239

/-- 2^p·ln 20 up to `lnError p`: ln 20 = 4·ln 2 + ln(5/4) = 8·artanh(1/3) + 2·artanh(1/9). -/
def lnTwentyFixed (p : Nat) : Int := 8 * artanhFixed p 3 + 2 * artanhFixed p 9

/-- The bound on |lnTwentyFixed p - 2^p·ln 20|. -/
def lnError (p : Nat) : Nat := 16 * (p + 1)

/-- 2^p·cos(2π·m/n) up to 64·(p + 1), for m < n and p ≥ 64: the Taylor sum Σ_{i<p} (-1)^i·x^(2i)/(2i)! at
x = a/b = 2·m·piFixed p/(n·2^p), over the common denominator b^(2p)·(2p)!, rounded down. -/
def cosFixed (p n m : Nat) : Int :=
  let a : Int := 2 * m * piFixed p
  let b : Nat := n * 2 ^ p
  let top := Nat.factorial (2 * p)
  let terms := (List.range p).map fun i =>
    (-1) ^ i * a ^ (2 * i) * ((b ^ (2 * p - 2 * i) * (top / Nat.factorial (2 * i)) : Nat) : Int)
  (2 ^ p * terms.sum) / ((b ^ (2 * p) * top : Nat) : Int)

/-- 2^p·P_k up to `powerError p n`, from the autocorrelation and the cosines of 2π·m/n. -/
def powerFixed (r cosines : List Int) (n k : Nat) : Int :=
  ((List.range n).map fun d => r.getD d 0 * cosines.getD (d * k % n) 0).sum

/-- The bound on |powerFixed - 2^p·P_k|: each of the n cosines is within 64·(p + 1) and each |r_d| ≤ n. -/
def powerError (p n : Nat) : Nat := n * n * (64 * (p + 1))

/-- The signs, their autocorrelation and the cosines, then 2^p·P_k for each k < K. -/
def powerSpectrum (p : Nat) (bits : List Bool) : List Int :=
  let n := bits.length
  let x := bits.map signOfBit
  let r := (List.range n).map (autocorrelation x)
  let cosines := (List.range n).map (cosFixed p n)
  (List.range (n / 2)).map (powerFixed r cosines n)

/-! ### The verdicts (44 R201) -/

/-- Where P_k lies: below the tolerance band, inside it, or above it (44 R201). -/
inductive BandSide where
  | below
  | inside
  | above
deriving DecidableEq, Repr

/-- The side of the band that 2^p·P_k, given up to `powerError`, certifies: P_k < τ·(1 - DFT_TOL), P_k > τ·(1 + DFT_TOL),
or between the two; none where the enclosures of P_k and of a bound of the band overlap. -/
def bandSide (cfg : Config) (p n : Nat) (power : Int) : Option BandSide :=
  let e : Int := powerError p n
  let low : Int := n * (lnTwentyFixed p - lnError p)
  let high : Int := n * (lnTwentyFixed p + lnError p)
  let num : Int := cfg.dftTolNum
  let den : Int := cfg.dftTolDen
  if (power + e) * den < low * (den - num) then some .below
  else if high * (den + num) < (power - e) * den then some .above
  else if high * (den - num) < (power - e) * den ∧ (power + e) * den < low * (den + num) then some .inside
  else none

/-- The side of component k at the first of the precisions p, 2p, 4p, … that certifies one; none where none does, which
is where P_k lies on a bound of the band (44 R203: never). The spec bounds no distance of P_k from the band, so no fixed
number of precisions would do. -/
def refineSide (cfg : Config) (bits : List Bool) (k p : Nat) : Option BandSide :=
  match bandSide cfg p bits.length ((powerSpectrum p bits).getD k 0) with
  | some side => some side
  | none => refineSide cfg bits k (2 * p)
partial_fixpoint

/-- The precision tried first: 64 bits. -/
def firstPrecision : Nat := 64

/-- The side of component k, from 2^64·P_k where that certifies one. -/
def componentSide (cfg : Config) (bits : List Bool) (k : Nat) (power : Int) : Option BandSide :=
  match bandSide cfg firstPrecision bits.length power with
  | some side => some side
  | none => refineSide cfg bits k (2 * firstPrecision)

/-- The verdict of a component (44 R201): the exact comparison P_k < τ outside the band, the draw inside it, its bounds
among it. -/
def sideVerdict (draw : Bool) : Option BandSide → Bool
  | some .below => true
  | some .inside => draw
  | some .above => false
  | none => draw

/-- The verdict "P_k < τ" of component k (44 R201) from 2^64·P_k, with what is drawn for it. -/
def dftVerdict (cfg : Config) (bits : List Bool) (k : Nat) (power : Int) (draw : Bool) : Bool :=
  sideVerdict draw (componentSide cfg bits k power)

/-- N1, the number of components with the verdict 1 (44 R201); the draws are the free values of this completion. -/
def dftCount (cfg : Config) (draws : Nat) (bits : List Bool) : Nat :=
  ((powerSpectrum firstPrecision bits).zipIdx).countP fun pk =>
    dftVerdict cfg bits pk.2 pk.1 (Config.dftVerdictDraw draws pk.2)

/-- DFT (44 R202). Fewer than 2 bits is InsufficientData at issue. -/
def execDft (s : State) : Host.Outcome State Fault Refusal :=
  if s.busy then
    withBits .bitmem s.op.src.toNat s.op.len.toNat s fun bits =>
      .next (s.complete
        { res :=
            { res0 := resultWord s.op.len.toNat
              res1 := resultWord (dftCount s.cfg s.draws bits)
              res2 := resultWord (componentCount s.op)
              res3 := resultWord (bits.countP id) }
          elapsed := s.elapsedDraw
          bitmem := s.bitmem
          polymem := s.polymem })
  else issue .dft dftChecks (fun o => componentCount o == 0) s

end Sys2Proof.Machine
end

