-- ==== Sys2Proof/Machine/Lcg.lean ====
section
/-! DEFINITION. The linear-congruential generators GEN_LCG, GEN_PM, GEN_PCG32 and GEN_SM64
(spec/41_lcg_generators.md). Arithmetic is exact and then reduced by the stated modulus (41 R135). -/

namespace Sys2Proof.Machine

/-! ## The common contract (41 R130) -/

/-- A generator: its step and its output function (41 R130). -/
structure Generator where
  step : Nat → Nat
  out  : Nat → Nat

/-- `k` steps from state `x`: the last state, and the chunks of the new states one after the other (41 R130). -/
def Generator.chunks (g : Generator) (w : Nat) (msbFirst : Bool) : Nat → Nat → Nat × List Bool
  | 0, x => (x, [])
  | k + 1, x =>
    let r := g.chunks w msbFirst k (g.step x)
    (r.1, pack (g.out (g.step x)) w msbFirst ++ r.2)

/-- k = ceil(n / W), the number of steps (41 R130). -/
def chunkCount (n w : Nat) : Nat := (n + w - 1) / w

/-- gen(x0, n, W, msb_first) of 41 R130 without its writes: the last state and the first `n` bits emitted (41 R132;
log entry 19). -/
def Generator.run (g : Generator) (x0 n w : Nat) (msbFirst : Bool) : Nat × List Bool :=
  let r := g.chunks w msbFirst (chunkCount n w) x0
  (r.1, r.2.take n)

/-- The completion of a generator command (41 R130): NBITS bits at DST, RES0 = n, RES1 = k, STATE = the last state. -/
def completeGenerator (g : Generator) (x0 w : Nat) (msbFirst : Bool) (s : State) : Host.Outcome State Fault Refusal :=
  let n := s.op.nbits.toNat
  let r := g.run x0 n w msbFirst
  .next (s.complete
    { res := { res0 := resultWord n, res1 := resultWord (chunkCount n w) }
      state := r.1
      elapsed := s.generatorElapsed
      bitmem := s.bitmem.writeSeq s.op.dst.toNat r.2
      polymem := s.polymem })

/-- The checks of a generator whose seed must be present, in the order of 41 R133. -/
def seededChecks (sa : Bool) (cfg : Config) (o : OpSet) : List Check := [seedPresent sa, dstInRange cfg o o.nbits.toNat]

/-- The checks of a generator with a default seed (41 R133). -/
def defaultSeedChecks (cfg : Config) (o : OpSet) : List Check := [dstInRange cfg o o.nbits.toNat]

/-! ## GEN_LCG (41 R136) -/

/-- x <- (a·x + c) mod m, the output the state itself (41 R136). -/
def lcgGenerator (o : OpSet) : Generator where
  step x := (o.lcga.toNat * x + o.lcgc.toNat) % o.modulus
  out x := x

/-- GEN_LCG (41 R136): from seed mod m; the default chunk width is bitlen(m) (41 R131). -/
def execGenLcg (lsbf sa : Bool) (width : Nat) (s : State) : Host.Outcome State Fault Refusal :=
  if s.busy then
    completeGenerator (lcgGenerator s.op) (s.op.seed.toNat % s.op.modulus)
      (chunkWidth width (bitlen s.op.modulus)) (!lsbf) s
  else issue (.genLcg lsbf sa width) (seededChecks sa) (fun _ => false) s

/-! ## GEN_PM (41 R137 to R139) -/

/-- m = 2^31 - 1 (41 R137). -/
def pmModulus : Nat := 2147483647

/-- Schrage's step for the multiplier `a` (41 R138): t = a·(x mod q) - r·(x div q), and t + m when t ≤ 0, with
q = m div a and r = m mod a (41 R137). -/
def schrageStep (a x : Nat) : Nat :=
  let q := pmModulus / a
  let r := pmModulus % a
  let t : Int := (a * (x % q) : Nat) - (r * (x / q) : Nat)
  if t ≤ 0 then (t + pmModulus).toNat else t.toNat

/-- GEN_PM's step and output (41 R138). -/
def pmGenerator (cfg : Config) : Generator where
  step x := schrageStep cfg.pmMult x
  out x := x

/-- x_0 = seed mod m, forced to at least 1 (41 R138). -/
def pmSeed (seed : Nat) : Nat := if seed % pmModulus = 0 then 1 else seed % pmModulus

/-- GEN_PM (41 R138); the default chunk width is 31 (41 R131). -/
def execGenPm (lsbf sa : Bool) (width : Nat) (s : State) : Host.Outcome State Fault Refusal :=
  if s.busy then
    completeGenerator (pmGenerator s.cfg) (pmSeed s.op.seed.toNat) (chunkWidth width 31) (!lsbf) s
  else issue (.genPm lsbf sa width) (seededChecks sa) (fun _ => false) s

/-! ## GEN_PCG32 (41 R140 to R142) -/

/-- PCG_MULT (41 R140). -/
def pcgMult : Nat := 6364136223846793005

/-- inc = (2·sequence + 1) mod 2^64 (41 R140). -/
def pcgInc (sequence : Nat) : Nat := (2 * sequence + 1) % 2 ^ 64

/-- The LCG step on the 64-bit state (41 R141). -/
def pcgStep (inc x : Nat) : Nat := (x * pcgMult + inc) % 2 ^ 64

/-- rotr32(v, r) (00_scope R10). -/
def rotr32 (v r : Nat) : Nat := ((v >>> r) ||| (v <<< (32 - r))) % 2 ^ 32

/-- perm(s), the output permutation (41 R140). -/
def pcgPerm (s : Nat) : Nat := rotr32 ((((s >>> 18) ^^^ s) >>> 27) % 2 ^ 32) (s >>> 59)

/-- The state after the seeding: 0, a step, plus initstate, a step (41 R141). -/
def pcgInit (inc init : Nat) : Nat := pcgStep inc ((pcgStep inc 0 + init) % 2 ^ 64)

/-- GEN_PCG32's step and output, of the new state (41 R141, R142). -/
def pcgGenerator (inc : Nat) : Generator where
  step x := pcgStep inc x
  out x := pcgPerm x

/-- GEN_PCG32 (41 R141); the default chunk width is 32 (41 R131). -/
def execGenPcg32 (lsbf sa : Bool) (width : Nat) (s : State) : Host.Outcome State Fault Refusal :=
  if s.busy then
    completeGenerator (pcgGenerator (pcgInc (s.op.pcgSeed sa).2))
      (pcgInit (pcgInc (s.op.pcgSeed sa).2) (s.op.pcgSeed sa).1) (chunkWidth width 32) (!lsbf) s
  else issue (.genPcg32 lsbf sa width) defaultSeedChecks (fun _ => false) s

/-! ## GEN_SM64 (41 R143, R144) -/

/-- γ, the golden-ratio constant (41 R143). -/
def smGamma : Nat := 0x9E3779B97F4A7C15

/-- mix(x), the two multiply-xorshift rounds and the closing xorshift (41 R143). -/
def smMix (x : Nat) : Nat :=
  let z1 := ((x ^^^ (x >>> 30)) * 0xBF58476D1CE4E5B9) % 2 ^ 64
  let z2 := ((z1 ^^^ (z1 >>> 27)) * 0x94D049BB133111EB) % 2 ^ 64
  z2 ^^^ (z2 >>> 31)

/-- GEN_SM64's step and output, of the new state (41 R144). -/
def smGenerator : Generator where
  step x := (x + smGamma) % 2 ^ 64
  out x := smMix x

/-- GEN_SM64 (41 R144); the default chunk width is 64 (41 R131). -/
def execGenSm64 (lsbf sa : Bool) (width : Nat) (s : State) : Host.Outcome State Fault Refusal :=
  if s.busy then
    completeGenerator smGenerator (s.op.smSeed sa) (chunkWidth width 64) (!lsbf) s
  else issue (.genSm64 lsbf sa width) defaultSeedChecks (fun _ => false) s

end Sys2Proof.Machine
end

