-- ==== Sys2Proof/Machine/Lfsr.lean ====
section
/-! DEFINITION. The LFSR generator GEN_LFSR (spec/42_lfsr_generator.md). -/

namespace Sys2Proof.Machine

/-- GEN_LFSR's checks in the order of 42 R170: WIDTH, LFSR_L, the SRC region, the DST region. -/
def lfsrChecks (width : Nat) (cfg : Config) (o : OpSet) : List Check :=
  [ atMost width 1 0x04,
    atMost o.lfsrL.toNat cfg.lcMMax 0x17,
    srcInRange cfg o o.lfsrL.toNat,
    dstInRange cfg o o.nbits.toNat ]

/-- `k` more bits of the recurrence s_j = c_1·s_{j-1} ⊕ … ⊕ c_L·s_{j-L}, on a sequence held newest first (42 R170). -/
def lfsrExtend (c : List Bool) : Nat → List Bool → List Bool
  | 0, past => past
  | k + 1, past => lfsrExtend c k (feedback c past :: past)

/-- The first `n` bits of the sequence that starts with `init` and goes on by the coefficients c_1..c_L (42 R170). -/
def lfsrOutput (c init : List Bool) (n : Nat) : List Bool :=
  (lfsrExtend c (n - init.length) init.reverse).reverse.take n

/-- STATE: the last 64 emitted bits, the most recent at bit 0 (42 R172). -/
def lfsrState (bits : List Bool) : Nat := natOfBits (bits.reverse.take 64)

/-- GEN_LFSR (42 R170): all reads come before the write (20_memory R74); LSBF is ignored (30_encoding
R87), and POLYMEM bit 0 is not read (42 R170; log entry 7). -/
def execGenLfsr (lsbf : Bool) (width : Nat) (s : State) : Host.Outcome State Fault Refusal :=
  if s.busy then
    withBits .bitmem s.op.src.toNat s.op.lfsrL.toNat s fun init =>
      withBits .polymem 1 s.op.lfsrL.toNat s fun c =>
        let bits := lfsrOutput c init s.op.nbits.toNat
        .next (s.complete
          { res := { res0 := resultWord s.op.nbits.toNat, res1 := resultWord s.op.lfsrL.toNat }
            state := lfsrState bits
            elapsed := s.generatorElapsed
            bitmem := s.bitmem.writeSeq s.op.dst.toNat bits
            polymem := s.polymem })
  else issue (.genLfsr lsbf width) (lfsrChecks width) (fun _ => false) s

end Sys2Proof.Machine
end

