-- ==== Sys2Proof/Machine/LinComp.lean ====
section
/-! DEFINITION. The linear-complexity engine: BM and LINCOMP (spec/45_linear_complexity.md). -/

namespace Sys2Proof.Machine

/-! ## GF(2) polynomials (00_scope R16): the coefficient bits c_0, c_1, … -/

/-- Addition: ⊕ on coefficients. -/
def polyAdd : List Bool → List Bool → List Bool
  | [], q => q
  | p, [] => p
  | a :: p, b :: q => (a ^^ b) :: polyAdd p q

/-- x^k·B(x): the coefficients shifted up by k. -/
def polyShift (k : Nat) (b : List Bool) : List Bool := List.replicate k false ++ b

/-- c_i, 0 above the degree. -/
def polyCoeff (c : List Bool) (i : Nat) : Bool := c.getD i false

/-- deg C, 0 when C = 1 (45 R218). -/
def polyDegree (c : List Bool) : Nat := (c.reverse.dropWhile (!·)).length - 1

/-! ## Berlekamp-Massey (45 R216) -/

/-- The working state of BM: C, B, L, m, and N with the bits s_{N-1}, s_{N-2}, … read so far. -/
structure BmState where
  c    : List Bool
  b    : List Bool
  l    : Nat
  m    : Int
  n    : Nat
  past : List Bool
deriving DecidableEq, Repr

/-- C <- 1; B <- 1; L <- 0; m <- -1 (45 R216). -/
def BmState.init : BmState := { c := [true], b := [true], l := 0, m := -1, n := 0, past := [] }

/-- d = s_N ⊕ (c_1 & s_{N-1}) ⊕ … ⊕ (c_L & s_{N-L}) (45 R216). -/
def BmState.discrepancy (st : BmState) (bit : Bool) : Bool := bit ^^ feedback ((st.c.drop 1).take st.l) st.past

/-- The iteration for s_N = `bit` (45 R216). -/
def BmState.next (st : BmState) (bit : Bool) : BmState :=
  let past := bit :: st.past
  if st.discrepancy bit then
    let c := polyAdd st.c (polyShift ((st.n : Int) - st.m).toNat st.b)
    if 2 * st.l ≤ st.n then
      { c := c, b := st.c, l := st.n + 1 - st.l, m := st.n, n := st.n + 1, past := past }
    else { c := c, b := st.b, l := st.l, m := st.m, n := st.n + 1, past := past }
  else { c := st.c, b := st.b, l := st.l, m := st.m, n := st.n + 1, past := past }

/-- BM(s, n) (45 R216): (L, C). -/
def berlekampMassey (s : List Bool) : Nat × List Bool :=
  let st := s.foldl BmState.next BmState.init
  (st.l, st.c)

/-! ## BM (45 R218) -/

/-- BM's checks in the order of 45 R218. -/
def bmChecks (cfg : Config) (o : OpSet) : List Check :=
  [atMost o.len.toNat cfg.lcMMax 0x15, srcInRange cfg o o.len.toNat]

/-- BM (45 R218): c_0..c_n to POLYMEM bits 0..n. -/
def execBm (s : State) : Host.Outcome State Fault Refusal :=
  if s.busy then
    withBits .bitmem s.op.src.toNat s.op.len.toNat s fun bits =>
      let r := berlekampMassey bits
      .next (s.complete
        { res := { res0 := resultWord r.1, res1 := resultWord s.op.len.toNat, res2 := resultWord (polyDegree r.2) }
          elapsed := s.elapsedDraw
          bitmem := s.bitmem
          polymem := s.polymem.writeSeq 0 ((List.range (s.op.len.toNat + 1)).map (polyCoeff r.2)) })
  else issue .bm bmChecks (fun _ => false) s

/-! ## LINCOMP (45 R219 to R221) -/

/-- LINCOMP's checks in the order of 45 R221. -/
def lincompChecks (cfg : Config) (o : OpSet) : List Check :=
  [atMost o.blockLength cfg.lcMMax 0x16, srcInRange cfg o o.len.toNat]

/-- N = n div M blocks (45 R219). -/
def blockCount (o : OpSet) : Nat := o.len.toNat / o.blockLength

/-- D(L, M) (45 R220). -/
def complexityDeviation (l m : Nat) : Int :=
  if m % 2 = 0 then (l : Int) - (m / 2 : Nat) else ((m + 1) / 2 : Nat) - (l : Int)

/-- category(L, M) = min(6, max(0, D + 3)) (45 R220). -/
def complexityCategory (l m : Nat) : Nat := (min 6 (max 0 (complexityDeviation l m + 3))).toNat

/-- RES0 = N and RES1..RES7 = ν_0..ν_6 from the blocks' categories (45 R221). -/
def lincompResults (categories : List Nat) : Results where
  res0 := resultWord categories.length
  res1 := resultWord (categories.count 0)
  res2 := resultWord (categories.count 1)
  res3 := resultWord (categories.count 2)
  res4 := resultWord (categories.count 3)
  res5 := resultWord (categories.count 4)
  res6 := resultWord (categories.count 5)
  res7 := resultWord (categories.count 6)

/-- LINCOMP (45 R221). An input shorter than one block is InsufficientData at issue. -/
def execLincomp (s : State) : Host.Outcome State Fault Refusal :=
  if s.busy then
    withBits .bitmem s.op.src.toNat (blockCount s.op * s.op.blockLength) s fun bits =>
      let categories := (blocksOf s.op.blockLength (blockCount s.op) bits).map fun b =>
        complexityCategory (berlekampMassey b).1 s.op.blockLength
      .next (s.complete
        { res := lincompResults categories
          elapsed := s.elapsedDraw
          bitmem := s.bitmem
          polymem := s.polymem })
  else issue .lincomp lincompChecks (fun o => blockCount o == 0) s

end Sys2Proof.Machine
end

