-- ==== Sys2Proof/Machine/Rank.lean ====
section
/-! DEFINITION. The GF(2) matrix-rank engine RANK (spec/43_matrix_rank.md). -/

namespace Sys2Proof.Machine

/-- RANK's check at issue (43 R187). -/
def rankChecks (cfg : Config) (o : OpSet) : List Check := [srcInRange cfg o o.len.toNat]

/-- N = n div 1024 matrices (43 R185). -/
def matrixCount (o : OpSet) : Nat := o.len.toNat / 1024

/-- The 32 rows of a matrix from its 1024 bits: row r is bits 32·r .. 32·r+31, column c its bit c (43 R185). -/
def matrixRows (bits : List Bool) : List Word := (blocksOf 32 32 bits).map wordOfBits

/-- Swaps two rows of a matrix. -/
def swapRows (a : List Word) (i j : Nat) : List Word := (a.set i (a.getD j 0)).set j (a.getD i 0)

/-- One column of the elimination (43 R186): from the least row i ≥ r with a 1 in the column, swap rows i and r and
add row r to every other row with a 1 in the column. -/
def eliminateColumn (st : Nat × List Word) (col : Nat) : Nat × List Word :=
  let r := st.1
  let a := st.2
  match (List.range a.length).find? (fun i => decide (r ≤ i) && (a.getD i 0).getLsbD col) with
  | none => (r, a)
  | some i =>
    let b := swapRows a i r
    let p := b.getD r 0
    (r + 1, b.mapIdx fun j row => if j ≠ r ∧ row.getLsbD col = true then row ^^^ p else row)

/-- rank_GF2(A) (43 R186): elimination over columns 0..31. -/
def rankGF2 (a : List Word) : Nat := ((List.range 32).foldl eliminateColumn (0, a)).1

/-- RES0 to RES6 of RANK from the ranks of the N matrices (43 R187). -/
def rankResults (ranks : List Nat) (n : Nat) : Results where
  res0 := resultWord ranks.length
  res1 := resultWord (ranks.countP (· == 32))
  res2 := resultWord (ranks.countP (· == 31))
  res3 := resultWord (ranks.length - ranks.countP (· == 32) - ranks.countP (· == 31))
  res4 := resultWord (ranks.foldl min 32)
  res5 := resultWord (ranks.getLastD 0)
  res6 := resultWord (n - 1024 * ranks.length)

/-- RANK (43 R187). Fewer than 1024 bits is InsufficientData at issue. -/
def execRank (s : State) : Host.Outcome State Fault Refusal :=
  if s.busy then
    withBits .bitmem s.op.src.toNat (1024 * matrixCount s.op) s fun bits =>
      let ranks := (blocksOf 1024 (matrixCount s.op) bits).map fun m => rankGF2 (matrixRows m)
      .next (s.complete
        { res := rankResults ranks s.op.len.toNat
          elapsed := s.elapsedDraw
          bitmem := s.bitmem
          polymem := s.polymem })
  else issue .rank rankChecks (fun o => matrixCount o == 0) s

end Sys2Proof.Machine
end

