-- ==== Sys2Proof/Machine/Dispatch.lean ====
section
/-! DEFINITION. One arm per command. With no command in flight, `exec i` is the host's write of command i to CMD (its
issue, 60_exceptions R242); with a command in flight it is the completion (10_state R51) of command i on the latched
OP. Step gives the engine's turn exactly the command in flight (log entry 10). -/

namespace Sys2Proof.Machine

def exec (i : Instr) (s : State) : Host.Outcome State Fault Refusal :=
  match i with
  | .nop => Sys2Proof.Machine.execNop s
  | .pack lsbf width => Sys2Proof.Machine.execPack lsbf width s
  | .genLcg lsbf sa width => Sys2Proof.Machine.execGenLcg lsbf sa width s
  | .genPm lsbf sa width => Sys2Proof.Machine.execGenPm lsbf sa width s
  | .genPcg32 lsbf sa width => Sys2Proof.Machine.execGenPcg32 lsbf sa width s
  | .genSm64 lsbf sa width => Sys2Proof.Machine.execGenSm64 lsbf sa width s
  | .genLfsr lsbf width => Sys2Proof.Machine.execGenLfsr lsbf width s
  | .rank => Sys2Proof.Machine.execRank s
  | .dft => Sys2Proof.Machine.execDft s
  | .bm => Sys2Proof.Machine.execBm s
  | .lincomp => Sys2Proof.Machine.execLincomp s

end Sys2Proof.Machine
end

