-- ==== Sys2Proof/Machine/Agents.lean ====
section
/-! DEFINITION. The two agents' steps (10_state R20): the host's next input and the engine's completion, and which of
them comes first (60_exceptions R252). -/

namespace Sys2Proof.Machine

/-- The ERRCODE of a word that does not decode (60_exceptions R241). -/
def decodeErrCode : DecodeError → ErrCode
  | .unknownOp => .cfgUnknownOp
  | .reserved => .cfgReserved

/-- A host write of the word `w` to CMD (60_exceptions R242): refused while BUSY; a word that does not decode ends with
its error, ERRINFO 0x04; a command is issued. -/
def writeCmd (w : Word) (s : State) : Host.Outcome State Fault Refusal :=
  if s.busy then .next s.refuse
  else match decode w with
    | .command i => exec i s
    | .error e => .next ((s.prepare w).fail (decodeErrCode e) 0x04)

/-- One host access (20_memory R61 to R67). The answer of an access that changes state is recorded first. -/
def hostAccess (a : Access) (s : State) : Host.Outcome State Fault Refusal :=
  match target s.cfg a, a.kind with
  | .outside, _ => .next (s.respond (.notSelected a.addr))
  | .malformed off, _ => .next (s.respond (.busError off a.size))
  | .unmapped off, .read => .next (s.respond (.data off 0))
  | .unmapped off, .write _ => .next (s.respond (.written off))
  | .register off none, .read => .next (s.respond (.data off 0))
  | .register off none, .write _ => .next (s.respond (.written off))
  | .register off (some r), .read => .next (s.respond (.data off (s.readReg r)))
  | .register off (some .cmd), .write v => writeCmd v (s.respond (.written off))
  | .register off (some r), .write v => .next ((s.respond (.written off)).writeReg v r)
  | .window off sp j, .read => readWindow sp off j s
  | .window off sp j, .write v => .next (writeWindow sp off j v s)

/-- The step of one input of the outside world. -/
def inputStep (e : Input) (s : State) : Host.Outcome State Fault Refusal :=
  match e with
  | .access a => hostAccess a s
  | .hardReset => .next s.hardReset

/-- The engine's step: the completion of the command in flight (10_state R51). With none in flight it has no step. -/
def engineStep (s : State) : Host.Outcome State Fault Refusal :=
  match s.inFlight with
  | some i => exec i s
  | none => .next s

/-- Whose step comes next: the only agent that has one; at a race, the next entry of `turns`, and the engine when none
is left (60_exceptions R252, 70_reset R285; log entry 2). None when neither has a step. -/
def State.nextAgent (s : State) : Option Agent :=
  match s.busy, s.inputs with
  | false, [] => none
  | false, _ :: _ => some .host
  | true, [] => some .engine
  | true, _ :: _ => some (s.turns.headD .engine)

/-- A race uses up one entry of `turns`. -/
def State.takeTurn (s : State) : State :=
  match s.busy, s.inputs with
  | true, _ :: _ => { s with turns := s.turns.tail }
  | _, _ => s

/-- The host's step: its next input. -/
def hostStep (s : State) : Host.Outcome State Fault Refusal :=
  match s.inputs with
  | [] => .next s
  | e :: rest => inputStep e { s with inputs := rest }

/-- One step of RNGE and its host. With nothing to do the machine is idle and "all state survives idleness"
(60_exceptions R258; log entry 15). -/
def agentStep (s : State) : Host.Outcome State Fault Refusal :=
  match s.nextAgent with
  | none => .next s
  | some .host => hostStep s.takeTurn
  | some .engine => engineStep s.takeTurn

/-- The host's write of the word `w` to CMD, as an input (10_state R23, R40). -/
def cmdWrite (cfg : Config) (w : Word) : Input := hostWrite cfg 0x010 w

end Sys2Proof.Machine
end

