-- ==== Sys2Proof/Machine/Step.lean ====
section
/-! DEFINITION. The step of the machine, and the placing of a command as the host's next access. -/

namespace Sys2Proof.Machine

/-- One step: a host input, a completion, or idling (10_state R20). -/
def step (s : State) : Host.Outcome State Fault Refusal := agentStep s

/-- `s` with the host's next access the write of command word `w` (of `nbits` bits, the bits above 0) to CMD, and no
command in flight to race with it: RNGE fetches no instruction (20_memory R78), so this is where a command comes from
(log entries 1 and 13). -/
def State.withFetchWord (s : State) (nbits w : Nat) : State :=
  { s with inputs := cmdWrite s.cfg (BitVec.ofNat 32 (w % 2 ^ nbits)) :: s.inputs, flight := false }

end Sys2Proof.Machine
end

