-- ==== Sys2Proof/Machine/Script.lean ====
section
/-! DEFINITION. The host script notation and pseudo-commands of 30_encoding R96 and R97, as the inputs they stand for.
A script's access list is fixed in advance; WAIT's loop is a number of STATUS reads (log entry 20). -/

namespace Sys2Proof.Machine

/-- `WR <REG>, <value>`: a write to the register at byte offset `off` (30_encoding R96). -/
def scriptWr (cfg : Config) (off : Nat) (v : Word) : List Input := [hostWrite cfg off v]

/-- `RD <REG>` (30_encoding R96). -/
def scriptRd (cfg : Config) (off : Nat) : List Input := [hostRead cfg off]

/-- `WRW <space>[j], <value>` (30_encoding R96). -/
def scriptWrw (cfg : Config) (sp : Space) (j : Nat) (v : Word) : List Input := [hostWrite cfg (windowOffset sp j) v]

/-- `RDW <space>[j]` (30_encoding R96). -/
def scriptRdw (cfg : Config) (sp : Space) (j : Nat) : List Input := [hostRead cfg (windowOffset sp j)]

/-- A command "assembles to a write to CMD" (30_encoding R96). -/
def scriptCommand (cfg : Config) (i : Instr) : List Input := [cmdWrite cfg (encode i)]

/-- `WR64 <X>, v`: `WR X_LO, v mod 2^32` then `WR X_HI, v div 2^32`, X_LO at byte offset `off` (30_encoding R97). -/
def scriptWr64 (cfg : Config) (off v : Nat) : List Input :=
  [hostWrite cfg off (BitVec.ofNat 32 (v % 2 ^ 32)), hostWrite cfg (off + 4) (BitVec.ofNat 32 (v / 2 ^ 32))]

/-- `WAIT`: reads of STATUS, `polls` of them (30_encoding R97). -/
def scriptWait (cfg : Config) (polls : Nat) : List Input := List.replicate polls (hostRead cfg 0x00C)

/-- `RUN <command>`: the command, then `WAIT` (30_encoding R97). -/
def scriptRun (cfg : Config) (i : Instr) (polls : Nat) : List Input := scriptCommand cfg i ++ scriptWait cfg polls

/-- `CLR`: `WR STATUS, 0x0000001E` (30_encoding R97). -/
def scriptClr (cfg : Config) : List Input := scriptWr cfg 0x00C 0x0000001E

/-- `SRST`: `WR CTRL, 0x00000002` (30_encoding R97). -/
def scriptSrst (cfg : Config) : List Input := scriptWr cfg 0x008 0x00000002

end Sys2Proof.Machine
end

