-- ==== Sys2Proof/Safety.lean ====
section
/-! DEFINITION. The terms claims are stated in: which input a step takes, the host's accesses by register and window,
a command's own issue checks, and the invariant of the machine. -/

namespace Sys2Proof.Machine

/-! ## The host's accesses -/

/-- The byte offset of each operand register (10_state R23). -/
def operandOffset : OperandReg → Nat
  | .seedLo => 0x020 | .seedHi => 0x024 | .seqLo => 0x028 | .seqHi => 0x02C
  | .lcgaLo => 0x030 | .lcgaHi => 0x034 | .lcgcLo => 0x038 | .lcgcHi => 0x03C
  | .lcgmLo => 0x040 | .lcgmHi => 0x044 | .nbits => 0x048 | .dst => 0x04C
  | .src => 0x050 | .len => 0x054 | .blk => 0x058 | .lfsrL => 0x05C

/-- Word `j` lies in the aperture's range for the window (20_memory R61). -/
def windowHolds : Space → Nat → Prop
  | .polymem, j => 0x080000 + 4 * j < 0x100000
  | .bitmem, j => 0x100000 + 4 * j < 0x200000

/-- The input the next step takes, none when it is a completion or idles. -/
def State.nextInput (s : State) : Option Input :=
  match s.nextAgent with
  | some .host => s.inputs.head?
  | _ => none

/-- A soft reset or a hardware reset (70_reset R270, R272). -/
def isReset (cfg : Config) (e : Input) : Prop :=
  e = .hardReset ∨ ∃ v : Word, v.getLsbD 1 = true ∧ e = hostWrite cfg 0x008 v

/-! ## The checks of a command -/

/-- The issue checks of each command after decode, in the order of its rule (60_exceptions R242). -/
def commandChecks : Instr → Config → OpSet → List Check
  | .nop => fun _ _ => []
  | .pack _ width => packChecks width
  | .genLcg _ sa _ => seededChecks sa
  | .genPm _ sa _ => seededChecks sa
  | .genPcg32 _ _ _ => defaultSeedChecks
  | .genSm64 _ _ _ => defaultSeedChecks
  | .genLfsr _ width => lfsrChecks width
  | .rank => rankChecks
  | .dft => dftChecks
  | .bm => bmChecks
  | .lincomp => lincompChecks

/-- The InsufficientData condition of each command (60_exceptions R247). -/
def commandShort : Instr → OpSet → Bool
  | .nop => fun _ => false
  | .pack _ _ => fun _ => false
  | .genLcg _ _ _ => fun _ => false
  | .genPm _ _ _ => fun _ => false
  | .genPcg32 _ _ _ => fun _ => false
  | .genSm64 _ _ _ => fun _ => false
  | .genLfsr _ _ => fun _ => false
  | .rank => fun o => matrixCount o == 0
  | .dft => fun o => componentCount o == 0
  | .bm => fun _ => false
  | .lincomp => fun o => blockCount o == 0

/-- How many BITMEM bits from OP.DST a command writes (20_memory R73, 40 R113, 42 R174). -/
def writtenBits (i : Instr) (o : OpSet) : Nat :=
  match i with
  | .nop => 0
  | .pack _ w => w
  | .genLcg _ _ _ => o.nbits.toNat
  | .genPm _ _ _ => o.nbits.toNat
  | .genPcg32 _ _ _ => o.nbits.toNat
  | .genSm64 _ _ _ => o.nbits.toNat
  | .genLfsr _ _ => o.nbits.toNat
  | .rank => 0
  | .dft => 0
  | .bm => 0
  | .lincomp => 0

/-- How many BITMEM bits from OP.SRC a command reads (43 R185, 44 R202, 45 R218, R219, 42 R170). -/
def readBits (i : Instr) (o : OpSet) : Nat :=
  match i with
  | .nop => 0
  | .pack _ _ => 0
  | .genLcg _ _ _ => 0
  | .genPm _ _ _ => 0
  | .genPcg32 _ _ _ => 0
  | .genSm64 _ _ _ => 0
  | .genLfsr _ _ => o.lfsrL.toNat
  | .rank => 1024 * (o.len.toNat / 1024)
  | .dft => o.len.toNat
  | .bm => o.len.toNat
  | .lincomp => o.len.toNat / o.blockLength * o.blockLength

/-! ## The frame of an issue -/

/-- OP as 10_state R50 latches it at the issue of the word `w`: the operand registers, the pairs joined, and the fields
of the command word. -/
def latchedFrom (r : OperandRegs) (w : Word) (o : OpSet) : Prop :=
  (o.seed.toNat = r.seedHi.toNat * 2 ^ 32 + r.seedLo.toNat ∧ o.seq.toNat = r.seqHi.toNat * 2 ^ 32 + r.seqLo.toNat ∧
    o.lcga.toNat = r.lcgaHi.toNat * 2 ^ 32 + r.lcgaLo.toNat ∧ o.lcgc.toNat = r.lcgcHi.toNat * 2 ^ 32 + r.lcgcLo.toNat ∧
    o.lcgm.toNat = r.lcgmHi.toNat * 2 ^ 32 + r.lcgmLo.toNat) ∧
  (o.nbits = r.nbits ∧ o.dst = r.dst ∧ o.src = r.src ∧ o.len = r.len ∧ o.blk = r.blk ∧ o.lfsrL = r.lfsrL) ∧
  (o.opc.toNat = w.toNat % 2 ^ 8 ∧ o.lsbf = w.getLsbD 8 ∧ o.sa = w.getLsbD 9 ∧ o.width.toNat = w.toNat / 2 ^ 16 % 2 ^ 8)

/-! ## The frame of a completion -/

/-- `t` is `s` after the completion of its command, in everything but RES, STATE, ELAPSED and the memories: BUSY is 0,
DONE is 1, the other STATUS bits, the registers, OP and the host's side are as before. -/
def completedFrom (s t : State) : Prop :=
  t.busy = false ∧ t.status = { s.status with done := true } ∧ t.cfg = s.cfg ∧ t.irqEn = s.irqEn ∧ t.regs = s.regs ∧
    t.op = s.op ∧ t.inputs = s.inputs ∧ t.responses = s.responses ∧ t.turns = s.turns ∧ t.draws = s.draws + 1

/-! ## Frames of memory -/

/-- Every bit outside [a, a + n) reads as before, its written mark included. -/
def sameOutside (before after : Memory) (a n : Nat) : Prop :=
  ∀ x, x < a ∨ a + n ≤ x → after.read x = before.read x

/-- The bits `bs` stand at consecutive addresses from `a`, all marked. -/
def holdsBits (m : Memory) (a : Nat) (bs : List Bool) : Prop :=
  ∀ i, i < bs.length → m.read (a + i) = some (bs.getD i false)

/-! ## The invariant -/

/-- What holds of RNGE in every state a run reaches: the parameters are legal, the memories are canonical and inside
their capacity, the error fields agree, and a command in flight has passed its checks, with no ending or result of an
earlier command left to see. -/
structure State.Inv (s : State) : Prop where
  cfg_valid : s.cfg.valid
  bitmem_wf : s.bitmem.wf
  polymem_wf : s.polymem.wf
  bitmem_bound : ∀ c ∈ s.bitmem, c.1 < s.cfg.bitmemBits
  polymem_bound : ∀ c ∈ s.polymem, c.1 < s.cfg.polyBits
  err_code : s.status.err = true ↔ s.status.errCode ≠ .none
  err_info : s.status.err = false → s.status.errInfo = 0
  no_reserved_code : s.status.errCode ≠ .extSource ∧ s.status.errCode ≠ .execError
  one_ending : ¬(s.status.err = true ∧ s.status.insuff = true)
  flight_busy : s.flight = true → s.busy = true
  busy_clean : s.busy = true → s.status.done = false ∧ s.status.err = false ∧ s.status.insuff = false ∧ s.res = {} ∧
    s.stateLo = 0 ∧ s.stateHi = 0 ∧ s.elapsed = 0
  busy_checked : ∀ i, s.inFlight = some i →
    firstFailure (commandChecks i s.cfg s.op) = none ∧ commandShort i s.op = false

end Sys2Proof.Machine
end

