-- ==== Sys2Proof/Reference.lean ====
section
/-! DEFINITION. The spec's mathematical notions in the spec's own form, for statements to compare the machine with:
the generation loop of 41 R130, the recurrence of 42 R170, linear complexity (45 R215), matrices over GF(2) (43 R186),
the complex spectrum (44 R200) and the published linear-complexity statistic (45 R220). No meaning uses them. -/

namespace Sys2Proof.Machine.Reference

/-! ## Generation (41 R130) -/

/-- The loop of 41 R130, `while len(s) < n`, for at most `fuel` passes: the state x, the sequence s and the count k. -/
def genLoop (g : Generator) (w n : Nat) (msbFirst : Bool) : Nat → Nat → List Bool → Nat → Nat × List Bool × Nat
  | 0, x, s, k => (x, s, k)
  | fuel + 1, x, s, k =>
    if s.length < n then
      genLoop g w n msbFirst fuel (g.step x) (s ++ pack (g.out (g.step x)) w msbFirst) (k + 1)
    else (x, s, k)

/-- gen(x0, n, W, msb_first): the last state, the bits written and k. Each pass adds W ≥ 1 bits, so n passes do. -/
def gen (g : Generator) (x0 n w : Nat) (msbFirst : Bool) : Nat × List Bool × Nat :=
  let r := genLoop g w n msbFirst n x0 [] 0
  (r.1, r.2.1.take n, r.2.2)

/-- The output permutation of 41 R140 on 64-bit and 32-bit registers. -/
def pcgOutput (s : Dword) : Word := ((((s >>> 18) ^^^ s) >>> 27).setWidth 32).rotateRight (s >>> 59).toNat

/-- The mixing function of 41 R143 on a 64-bit register with wrap-around arithmetic (41 R135). -/
def smOutput (x : Dword) : Dword :=
  let z1 := (x ^^^ (x >>> 30)) * 0xBF58476D1CE4E5B9#64
  let z2 := (z1 ^^^ (z1 >>> 27)) * 0x94D049BB133111EB#64
  z2 ^^^ (z2 >>> 31)

/-- Output number `k`, counted from 0, of reference pcg32: the permutation of the state BEFORE the step (41 R142). -/
def pcgReferenceOutput (inc init k : Nat) : Nat := pcgPerm ((pcgStep inc)^[k] (pcgInit inc init))

/-- How a generator command with step and output `g`, initial state `x0` and chunk width `w` ends (41 R130, 10_state
R42, R43): `s` has it in flight, `t` is the state after its completion. -/
def generatorEnds (g : Generator) (x0 w : Nat) (msbFirst : Bool) (s t : State) : Prop :=
  let n := s.op.nbits.toNat
  let r := gen g x0 n w msbFirst
  completedFrom s t ∧
    t.res = { res0 := BitVec.ofNat 32 n, res1 := BitVec.ofNat 32 r.2.2 } ∧
    t.stateLo = BitVec.ofNat 32 (r.1 % 2 ^ 32) ∧ t.stateHi = BitVec.ofNat 32 (r.1 / 2 ^ 32 % 2 ^ 32) ∧
    t.elapsed = (if n = 0 then 0 else Config.elapsedDraw s.draws) ∧
    t.polymem = s.polymem ∧
    r.2.1.length = n ∧ holdsBits t.bitmem s.op.dst.toNat r.2.1 ∧ sameOutside s.bitmem t.bitmem s.op.dst.toNat n

/-! ## Linear recurrences (42 R170, 45 R215) -/

/-- f 0 ⊕ f 1 ⊕ … ⊕ f (n-1). -/
def xorSum (f : Nat → Bool) : Nat → Bool
  | 0 => false
  | n + 1 => xorSum f n ^^ f n

/-- s_j = c_1·s_{j-1} ⊕ … ⊕ c_L·s_{j-L} for every j with L ≤ j < len(s). -/
def Generates (l : Nat) (c : Nat → Bool) (s : List Bool) : Prop :=
  ∀ j, l ≤ j → j < s.length →
    s.getD j false = xorSum (fun i => c (i + 1) && s.getD (j - (i + 1)) false) l

/-! ## Berlekamp-Massey in the variant of 45 R216 -/

/-- C and B as coefficient functions, L and m. -/
structure Massey where
  c : Nat → Bool
  b : Nat → Bool
  l : Nat
  m : Int

/-- The state of 45 R216 before iteration `N` on the sequence `s`: C = B = 1, L = 0 and m = -1 first; an iteration with
the discrepancy d = 1 adds x^(N-m)·B to C, and where 2·L ≤ N also takes B <- the C before, L <- N + 1 - L, m <- N. -/
def massey (s : List Bool) : Nat → Massey
  | 0 => { c := fun i => i == 0, b := fun i => i == 0, l := 0, m := -1 }
  | N + 1 =>
    let old := massey s N
    let d := s.getD N false ^^ xorSum (fun i => old.c (i + 1) && s.getD (N - (i + 1)) false) old.l
    let k := ((N : Int) - old.m).toNat
    let c := fun i => old.c i ^^ (decide (k ≤ i) && old.b (i - k))
    if d = false then old
    else if 2 * old.l ≤ N then { c := c, b := old.c, l := N + 1 - old.l, m := N }
    else { old with c := c }

/-! ## Matrices over GF(2) (43 R185, R186) -/

/-- The 32×32 matrix over GF(2) whose row r is word r, column c its bit c. -/
def gf2Matrix (rows : List Word) : Matrix (Fin 32) (Fin 32) (ZMod 2) :=
  fun r c => if (rows.getD r 0).getLsbD c then 1 else 0

/-- The matrix of 43 R185 that starts at bit address `a` of BITMEM: entry (r, c) is bit a + 32·r + c. -/
def bitmemMatrix (m : Memory) (a : Nat) : Matrix (Fin 32) (Fin 32) (ZMod 2) :=
  fun r c => if m.read (a + 32 * r + c) = some true then 1 else 0

/-! ## The spectrum (44 R200) -/

/-- S_k = Σ_j x_j·exp(-2πi·j·k/n), with x_j = 2·ε_j - 1. -/
noncomputable def spectrum (bits : List Bool) (k : Nat) : ℂ :=
  ∑ j ∈ Finset.range bits.length,
    ((signOfBit (bits.getD j false) : ℤ) : ℂ) *
      Complex.exp (-(2 * Real.pi * Complex.I * (j : ℂ) * (k : ℂ)) / (bits.length : ℂ))

/-- P_k = |S_k|². -/
noncomputable def power (bits : List Bool) (k : Nat) : ℝ := Complex.normSq (spectrum bits k)

/-- τ = n·ln(20). -/
noncomputable def threshold (n : Nat) : ℝ := n * Real.log 20

/-- DFT_TOL as a real number. -/
noncomputable def tolerance (cfg : Config) : ℝ := (cfg.dftTolNum : ℝ) / cfg.dftTolDen

/-! ## The published statistic (45 R220) -/

/-- μ = M/2 + (9 + (-1)^(M+1))/36 - (M/3 + 2/9)/2^M. -/
def meanComplexity (m : Nat) : ℚ := m / 2 + (9 + (-1) ^ (m + 1)) / 36 - (m / 3 + 2 / 9) / 2 ^ m

/-- T = (-1)^M·(L - μ) + 2/9. -/
def complexityStatistic (l m : Nat) : ℚ := (-1) ^ m * (l - meanComplexity m) + 2 / 9

/-- The bucket of T against the bounds -2.5, -1.5, -0.5, 0.5, 1.5, 2.5. -/
def bucket (t : ℚ) : Nat :=
  if t ≤ -5 / 2 then 0
  else if t ≤ -3 / 2 then 1
  else if t ≤ -1 / 2 then 2
  else if t ≤ 1 / 2 then 3
  else if t ≤ 3 / 2 then 4
  else if t ≤ 5 / 2 then 5
  else 6

end Sys2Proof.Machine.Reference
end

