-- ==== Sys2Proof/Certificates/Slice0/Obligations.lean ====
section
/-! DEFINITION. The statements about RNGE for the provers, from the numbered rules of spec/. -/

open Sys2Proof Sys2Proof.Machine

/-! ## Encoding -/

/-- Decoding the word of a well-formed command gives the command back, whatever its fields (30_encoding R85, R91, R96). -/
def Obligations.DecodeOfEncodeIsTheCommand : Prop :=
  ∀ i : Instr, i.wf = true → decode (encode i) = .command i

/-- A word that decodes is the encoding of the command it decodes to, so each command has one word (30_encoding R85). -/
def Obligations.EncodeOfDecodedIsTheWord : Prop :=
  ∀ (w : Word) (i : Instr), decode w = .command i → i.wf = true ∧ encode i = w

/-- The OPC values assigned by 30_encoding R86. -/
def assignedOpcodes : List Nat := [0x00, 0x01, 0x10, 0x11, 0x12, 0x13, 0x18, 0x20, 0x28, 0x30, 0x31]

/-- A bit of `w` that 30_encoding R90 and R92 reserve for `w`'s OPC is set: bits 15:10 and 31:24 always, LSBF and
WIDTH but for PACK, the LCG generators and GEN_LFSR, SA but for the LCG generators. -/
def reservedBitSet (w : Word) : Prop :=
  let opc := w.toNat % 256
  (w.toNat / 2 ^ 10 % 2 ^ 6 ≠ 0) ∨ (w.toNat / 2 ^ 24 ≠ 0) ∨
    (w.getLsbD 8 = true ∧ opc ∉ [0x01, 0x10, 0x11, 0x12, 0x13, 0x18]) ∨
    (w.getLsbD 9 = true ∧ opc ∉ [0x10, 0x11, 0x12, 0x13]) ∨
    (w.toNat / 2 ^ 16 % 2 ^ 8 ≠ 0 ∧ opc ∉ [0x01, 0x10, 0x11, 0x12, 0x13, 0x18])

/-- 30_encoding R91: the OPC test comes first, then the reserved bits; any other word is the command of its OPC with
its LSBF, SA and WIDTH fields. -/
def Obligations.DecodeIsTotalAndOrdered : Prop :=
  ∀ w : Word,
    (w.toNat % 256 ∉ assignedOpcodes → decode w = .error .unknownOp) ∧
    (w.toNat % 256 ∈ assignedOpcodes → reservedBitSet w → decode w = .error .reserved) ∧
    (w.toNat % 256 ∈ assignedOpcodes → ¬reservedBitSet w →
      ∃ i, decode w = .command i ∧ i.opcode.toNat = w.toNat % 256 ∧ i.lsbf = w.getLsbD 8 ∧ i.sa = w.getLsbD 9 ∧
        i.width = w.toNat / 2 ^ 16 % 2 ^ 8)

/-- The worked encodings of 30_encoding R98. -/
def Obligations.WorkedEncodings : Prop :=
  encode (.genLcg false false 31) = 0x001F0010 ∧ decode 0x001F0010 = .command (.genLcg false false 31) ∧
  encode (.genPcg32 false true 0) = 0x00000212 ∧ decode 0x00000212 = .command (.genPcg32 false true 0) ∧
  encode (.pack true 8) = 0x00080101 ∧ decode 0x00080101 = .command (.pack true 8) ∧
  encode .rank = 0x00000020 ∧ decode 0x00000020 = .command .rank ∧
  encode .lincomp = 0x00000031 ∧ decode 0x00000031 = .command .lincomp ∧
  decode 0x00000220 = .error .reserved ∧ decode 0x00000002 = .error .unknownOp

/-! ## Steps -/

/-- With no command in flight and the write of a decodable word to CMD as the host's next access, the step is exec of
the decoded command, after the access is taken off the host's list and its answer recorded (60_exceptions R242,
20_memory R78; the lists are the model's own, log entries 1 and 11). -/
def Obligations.StepRunsTheDecodedCommand : Prop :=
  ∀ (s : State) (w : Word) (i : Instr) (rest : List Input),
    s.busy = false → s.inputs = hostWrite s.cfg 0x010 w :: rest → decode w = .command i →
    step s = exec i { s with inputs := rest, responses := .written 0x010 :: s.responses }

/-- When the engine has the step, it is exec of the command in flight (10_state R51). At a race the next entry of
`turns` decides, the engine when none is left (log entry 2). -/
def Obligations.StepCompletesTheCommandInFlight : Prop :=
  ∀ (s : State) (i : Instr), s.inFlight = some i → (s.inputs = [] ∨ s.turns.head? ≠ some .host) →
    step s = exec i { s with turns := if s.inputs.isEmpty then s.turns else s.turns.tail }

/-- The host's turn: with no command in flight, or at a race that `turns` gives to the host, the step is that of the
host's next input (60_exceptions R252, log entry 2); with neither a command nor an input the machine is idle and keeps
all its state (60_exceptions R258, log entry 15). -/
def Obligations.StepTakesTheHostsInputOrIdles : Prop :=
  (∀ (s : State) (e : Input) (rest : List Input), s.busy = false → s.inputs = e :: rest →
    step s = inputStep e { s with inputs := rest }) ∧
  (∀ (s : State) (e : Input) (rest : List Input) (more : List Agent), s.busy = true → s.inputs = e :: rest →
    s.turns = .host :: more → step s = inputStep e { s with inputs := rest, turns := more }) ∧
  (∀ s : State, s.busy = false → s.inputs = [] → step s = .next s)

/-- 30_encoding R94: a word with an unassigned OPC raises CFG_UNKNOWN_OP, a word with an assigned OPC and a reserved bit
set raises CFG_RESERVED, with ERRINFO 0x04. Like every issue it latches OP and clears the results (60_exceptions R242,
10_state R36, R50); the whole of the next state is given, so nothing else changes but the host's record. -/
def Obligations.IllegalWordsAreReported : Prop :=
  ∀ (s : State) (w : Word), s.busy = false →
    (w.toNat % 256 ∉ assignedOpcodes ∨ reservedBitSet w) →
    ∃ t, inputStep (hostWrite s.cfg 0x010 w) s = .next t ∧ latchedFrom s.regs w t.op ∧
      t = { s with
            status := { done := true, err := true, insuff := false, ovr := s.status.ovr,
                        errCode := if w.toNat % 256 ∈ assignedOpcodes then .cfgReserved else .cfgUnknownOp,
                        errInfo := 0x04 }
            res := {}, stateLo := 0, stateHi := 0, elapsed := 0, op := t.op, flight := false
            responses := .written 0x010 :: s.responses } ∧
      t.busy = false

/-! ## Issue (60_exceptions R242) -/

/-- The endings at issue and the start of a command, field by field: the clears of 10_state R36, the error fields of
R37, InsufficientData of R38, and the in-flight flag of R51. Everything else is as before. -/
def Obligations.IssueEndingsAsRecords : Prop :=
  ∀ (s : State) (w : Word) (code : ErrCode) (info : Octet),
    (s.prepare w).fail code info =
      { s with
        status := { done := true, err := true, insuff := false, ovr := s.status.ovr, errCode := code, errInfo := info }
        res := {}, stateLo := 0, stateHi := 0, elapsed := 0, op := OpSet.latch s.regs w, flight := false } ∧
    (s.prepare w).insufficient =
      { s with
        status := { done := true, err := false, insuff := true, ovr := s.status.ovr, errCode := .none, errInfo := 0 }
        res := {}, stateLo := 0, stateHi := 0, elapsed := 0, op := OpSet.latch s.regs w, flight := false } ∧
    (s.prepare w).accept =
      { s with
        status := { done := false, err := false, insuff := false, ovr := s.status.ovr, errCode := .none, errInfo := 0 }
        res := {}, stateLo := 0, stateHi := 0, elapsed := 0, op := OpSet.latch s.regs w, flight := true }

/-- The issue of every word, whether it decodes or not (60_exceptions R242), goes on: it latches OP (10_state R50), clears
the results (R36) and keeps OVR; it either ends at once with DONE, or sets the in-flight flag with DONE, ERR, INSUFF,
ERRCODE and ERRINFO clear; and it changes nothing else. exec of a well-formed command is the issue of its word. -/
def Obligations.IssueLatchesAndClears : Prop :=
  (∀ (s : State) (w : Word), s.busy = false →
    ∃ t, writeCmd w s = .next t ∧ latchedFrom s.regs w t.op ∧
      t = { s with status := t.status, res := {}, stateLo := 0, stateHi := 0, elapsed := 0, op := t.op,
                   flight := t.flight } ∧
      t.status.ovr = s.status.ovr ∧
      ((t.flight = false ∧ t.status.done = true) ∨
       (t.flight = true ∧ t.status = { done := false, err := false, insuff := false, ovr := s.status.ovr,
                                       errCode := .none, errInfo := 0 }))) ∧
  (∀ (s : State) (i : Instr), s.busy = false → i.wf = true →
    exec i s = writeCmd (encode i) s ∧ ∃ t, exec i s = .next t)

/-- A command that is accepted at issue is the command in flight, and STATUS.BUSY is 1 (10_state R35, R51). -/
def Obligations.AcceptedCommandIsInFlight : Prop :=
  ∀ (s : State) (i : Instr), i.wf = true → i ≠ .nop →
    ((s.prepare (encode i)).accept).inFlight = some i ∧ ((s.prepare (encode i)).accept).busy = true

/-- 40 R110: NOP ends at issue with the issue clears and DONE; BUSY is never set, OVR is kept. -/
def Obligations.NopEndsAtIssue : Prop :=
  ∀ s : State, s.busy = false →
    ∃ t, exec .nop s = .next t ∧
      t.status = { done := true, err := false, insuff := false, ovr := s.status.ovr, errCode := .none, errInfo := 0 } ∧
      t.busy = false ∧ t.res = {} ∧ t.stateLo = 0 ∧ t.stateHi = 0 ∧ t.elapsed = 0 ∧
      t.regs = s.regs ∧ t.irqEn = s.irqEn ∧ t.bitmem = s.bitmem ∧ t.polymem = s.polymem ∧ t.cfg = s.cfg ∧
      t.inputs = s.inputs ∧ t.responses = s.responses ∧ t.turns = s.turns ∧ t.draws = s.draws

/-- The issue of PACK (40 R111): its one check, on an unbounded sum. -/
def Obligations.PackIssue : Prop :=
  ∀ (s : State) (lsbf : Bool) (width : Nat), s.busy = false → width < 256 →
    let t := s.prepare (encode (.pack lsbf width))
    exec (.pack lsbf width) s =
      .next (if s.cfg.bitmemBits < s.regs.dst.toNat + width then t.fail .cfgRange 0x13 else t.accept)

/-- The issue of the four linear-congruential generators (41 R133): the seed first, then the destination region. -/
def Obligations.GeneratorIssue : Prop :=
  ∀ (s : State) (lsbf sa : Bool) (width : Nat), s.busy = false → width < 256 →
    let seeded (i : Instr) : Host.Outcome State Fault Refusal :=
      let t := s.prepare (encode i)
      .next (if sa then t.fail .cfgSeedAbsent 0x08
        else if s.cfg.bitmemBits < s.regs.dst.toNat + s.regs.nbits.toNat then t.fail .cfgRange 0x13 else t.accept)
    let defaulted (i : Instr) : Host.Outcome State Fault Refusal :=
      let t := s.prepare (encode i)
      .next (if s.cfg.bitmemBits < s.regs.dst.toNat + s.regs.nbits.toNat then t.fail .cfgRange 0x13 else t.accept)
    exec (.genLcg lsbf sa width) s = seeded (.genLcg lsbf sa width) ∧
    exec (.genPm lsbf sa width) s = seeded (.genPm lsbf sa width) ∧
    exec (.genPcg32 lsbf sa width) s = defaulted (.genPcg32 lsbf sa width) ∧
    exec (.genSm64 lsbf sa width) s = defaulted (.genSm64 lsbf sa width)

/-- The issue of GEN_LFSR (42 R170): WIDTH, LFSR_L, the source region, the destination region, in this order. -/
def Obligations.LfsrIssue : Prop :=
  ∀ (s : State) (lsbf : Bool) (width : Nat), s.busy = false → width < 256 →
    let t := s.prepare (encode (.genLfsr lsbf width))
    exec (.genLfsr lsbf width) s =
      .next (if 1 < width then t.fail .cfgParam 0x04
        else if s.cfg.lcMMax < s.regs.lfsrL.toNat then t.fail .cfgParam 0x17
        else if s.cfg.bitmemBits < s.regs.src.toNat + s.regs.lfsrL.toNat then t.fail .cfgRange 0x14
        else if s.cfg.bitmemBits < s.regs.dst.toNat + s.regs.nbits.toNat then t.fail .cfgRange 0x13
        else t.accept)

/-- The issue of RANK, DFT, BM and LINCOMP (43 R187, 44 R202, 45 R218, R221): the parameter, the source region, and
InsufficientData only when every check passes. -/
def Obligations.AnalysisIssue : Prop :=
  ∀ s : State, s.busy = false →
    let n := s.regs.len.toNat
    let m := if s.regs.blk.toNat = 0 then 500 else s.regs.blk.toNat
    let outOfRange := s.cfg.bitmemBits < s.regs.src.toNat + n
    let t (i : Instr) := s.prepare (encode i)
    exec .rank s = .next (if outOfRange then (t .rank).fail .cfgRange 0x14
      else if n < 1024 then (t .rank).insufficient else (t .rank).accept) ∧
    exec .dft s = .next (if s.cfg.dftNMax < n then (t .dft).fail .cfgParam 0x15
      else if outOfRange then (t .dft).fail .cfgRange 0x14
      else if n < 2 then (t .dft).insufficient else (t .dft).accept) ∧
    exec .bm s = .next (if s.cfg.lcMMax < n then (t .bm).fail .cfgParam 0x15
      else if outOfRange then (t .bm).fail .cfgRange 0x14 else (t .bm).accept) ∧
    exec .lincomp s = .next (if s.cfg.lcMMax < m then (t .lincomp).fail .cfgParam 0x16
      else if outOfRange then (t .lincomp).fail .cfgRange 0x14
      else if n < m then (t .lincomp).insufficient else (t .lincomp).accept)

/-- 60_exceptions R240: every command issued ends in exactly one of four ways, an error, InsufficientData, NOP's ending
at issue, or a completion by the engine, and no command fails after it has started: its completion sets DONE and no
error, or is the model fault of an unmarked input bit (10_state R54). -/
def Obligations.CommandEndsInOneOfFourWays : Prop :=
  (∀ (s : State) (i : Instr), s.busy = false → i.wf = true →
    ∃ t, exec i s = .next t ∧
      ((t.status.err = true ∧ t.status.done = true ∧ t.status.insuff = false ∧ t.busy = false ∧ i ≠ .nop) ∨
       (t.status.insuff = true ∧ t.status.done = true ∧ t.status.err = false ∧ t.busy = false ∧
          (i = .rank ∨ i = .dft ∨ i = .lincomp)) ∨
       (i = .nop ∧ t.status.done = true ∧ t.status.err = false ∧ t.status.insuff = false ∧ t.busy = false) ∨
       (t.busy = true ∧ t.inFlight = some i ∧ t.status.done = false ∧ t.status.err = false ∧
          t.status.insuff = false))) ∧
  (∀ (s : State) (i : Instr), s.inFlight = some i →
    (∃ t, exec i s = .next t ∧ completedFrom s t) ∨
    (∃ sp a, exec i s = .fault (.uninitRead sp a)))

/-! ## PACK -/

/-- The completion of PACK (40 R111, R113): exactly the `width` bits at DST, MSB first or LSB first, with zeros above
the 64 bits of SEED; RES0 = w; every other bit of both memories, every register and STATE are as 40 R111 says. -/
def Obligations.PackCompletes : Prop :=
  ∀ (s : State) (lsbf : Bool) (width : Nat), s.inFlight = some (.pack lsbf width) →
    ∃ t, exec (.pack lsbf width) s = .next t ∧ completedFrom s t ∧
      t.res = { res0 := BitVec.ofNat 32 width } ∧ t.stateLo = 0 ∧ t.stateHi = 0 ∧
      t.elapsed = Config.elapsedDraw s.draws ∧
      (∀ j, j < width → t.bitmem.read (s.op.dst.toNat + j) =
        some (s.op.seed.getLsbD (if lsbf then j else width - 1 - j))) ∧
      sameOutside s.bitmem t.bitmem s.op.dst.toNat width ∧ t.polymem = s.polymem

/-- 40 R112: packing LSB first is the reverse of packing MSB first, for every value and width, and so PACK with
LSBF = 1 writes the reverse of the bits PACK with LSBF = 0 writes, over the same region. -/
def Obligations.PackOrdersAreReverses : Prop :=
  (∀ v w : Nat, pack v w false = (pack v w true).reverse) ∧
  (∀ (s1 s2 : State) (width : Nat), s1.inFlight = some (.pack true width) → s2.inFlight = some (.pack false width) →
    s1.op.seed = s2.op.seed → s1.op.dst = s2.op.dst →
    ∃ t1 t2, exec (.pack true width) s1 = .next t1 ∧ exec (.pack false width) s2 = .next t2 ∧
      ∀ j, j < width → t1.bitmem.read (s1.op.dst.toNat + j) = t2.bitmem.read (s2.op.dst.toNat + (width - 1 - j)))

/-! ## The linear-congruential generators -/

/-- The completion of GEN_LCG (41 R130 to R132, R136): x <- (a·x + c) mod m from seed mod m, m = 2^64 when LCGM is 0,
in chunks of WIDTH bits, or of the least W with m < 2^W when WIDTH is 0. -/
def Obligations.LcgCompletes : Prop :=
  ∀ (s : State) (lsbf sa : Bool) (width w : Nat), s.inFlight = some (.genLcg lsbf sa width) →
    let m := if s.op.lcgm.toNat = 0 then 2 ^ 64 else s.op.lcgm.toNat
    (if width = 0 then m < 2 ^ w ∧ ∀ k, m < 2 ^ k → w ≤ k else w = width) →
    ∃ t, exec (.genLcg lsbf sa width) s = .next t ∧
      Reference.generatorEnds
        { step := fun x => (s.op.lcga.toNat * x + s.op.lcgc.toNat) % m, out := fun x => x }
        (s.op.seed.toNat % m) w (!lsbf) s t

/-- The completion of GEN_PM (41 R130 to R132, R137, R138): Schrage's step with the parameter PM_MULT, from the seed
mod 2^31 - 1 forced to at least 1, in chunks of WIDTH or 31 bits. -/
def Obligations.ParkMillerCompletes : Prop :=
  ∀ (s : State) (lsbf sa : Bool) (width : Nat), s.inFlight = some (.genPm lsbf sa width) →
    let m : Nat := 2 ^ 31 - 1
    let q := m / s.cfg.pmMult
    let r := m % s.cfg.pmMult
    let step (x : Nat) : Nat :=
      let t : Int := (s.cfg.pmMult : Int) * (x % q : Nat) - (r : Int) * (x / q : Nat)
      if t ≤ 0 then (t + m).toNat else t.toNat
    ∃ t, exec (.genPm lsbf sa width) s = .next t ∧
      Reference.generatorEnds { step := step, out := fun x => x } (max 1 (s.op.seed.toNat % m))
        (if width = 0 then 31 else width) (!lsbf) s t

/-- 41 R139: for x in [1, m-1] Schrage's step is (a·x) mod m and lies in [1, m-1], so the state stays there from any
such x_0; and the branch t ≤ 0 is taken only with t < 0. -/
def Obligations.SchrageStepIsTheModularProduct : Prop :=
  ∀ cfg : Config, cfg.valid → ∀ x, 1 ≤ x → x ≤ 2147483646 →
    schrageStep cfg.pmMult x = cfg.pmMult * x % 2147483647 ∧
    1 ≤ schrageStep cfg.pmMult x ∧ schrageStep cfg.pmMult x ≤ 2147483646 ∧
    (∀ k, 1 ≤ (schrageStep cfg.pmMult)^[k] x ∧ (schrageStep cfg.pmMult)^[k] x ≤ 2147483646) ∧
    (cfg.pmMult : Int) * (x % (2147483647 / cfg.pmMult) : Nat)
      - (2147483647 % cfg.pmMult : Nat) * (x / (2147483647 / cfg.pmMult) : Nat) ≠ 0

/-- The completion of GEN_PCG32 (41 R130 to R132, R140, R141), its output the permutation of the NEW state, stated on
64-bit and 32-bit registers. -/
def Obligations.PcgCompletes : Prop :=
  ∀ (s : State) (lsbf sa : Bool) (width : Nat), s.inFlight = some (.genPcg32 lsbf sa width) →
    let init := if sa then 1 else s.op.seed.toNat
    let sequence := if sa then 1 else s.op.seq.toNat
    let inc := (2 * sequence + 1) % 2 ^ 64
    let step (x : Nat) : Nat := (x * 6364136223846793005 + inc) % 2 ^ 64
    ∃ t, exec (.genPcg32 lsbf sa width) s = .next t ∧
      Reference.generatorEnds
        { step := step, out := fun x => (Reference.pcgOutput (BitVec.ofNat 64 x)).toNat }
        (step ((step 0 + init) % 2 ^ 64)) (if width = 0 then 32 else width) (!lsbf) s t

/-- 41 R142: GEN_PCG32's output k (counted from 1) is the reference generator's output k+1 for the same (init, seq);
for (42, 54) the reference's first two outputs are 0xA15C02B7 and 0x7B47F409. -/
def Obligations.PcgIsTheReferenceShiftedByOne : Prop :=
  (∀ init sequence n : Nat,
    ((pcgGenerator (pcgInc sequence)).run (pcgInit (pcgInc sequence) init) (32 * n) 32 true).2 =
      (List.range n).flatMap fun k => pack (Reference.pcgReferenceOutput (pcgInc sequence) init (k + 1)) 32 true) ∧
  Reference.pcgReferenceOutput (pcgInc 54) 42 0 = 0xA15C02B7 ∧
  Reference.pcgReferenceOutput (pcgInc 54) 42 1 = 0x7B47F409

/-- The completion of GEN_SM64 (41 R130 to R132, R143, R144), its output the mix of the NEW state, stated on 64-bit
registers. -/
def Obligations.SplitMixCompletes : Prop :=
  ∀ (s : State) (lsbf sa : Bool) (width : Nat), s.inFlight = some (.genSm64 lsbf sa width) →
    ∃ t, exec (.genSm64 lsbf sa width) s = .next t ∧
      Reference.generatorEnds
        { step := fun x => (x + 0x9E3779B97F4A7C15) % 2 ^ 64
          out := fun x => (Reference.smOutput (BitVec.ofNat 64 x)).toNat }
        (if sa then 1 else s.op.seed.toNat) (if width = 0 then 64 else width) (!lsbf) s t

/-- 41 R134: the bits a linear-congruential generator writes, RES and STATE depend only on OP (and the parameter
PM_MULT), each bit of the destination is written, and with NBITS = 0 nothing is written and RES and ELAPSED are 0. -/
def Obligations.GeneratorsDependOnlyOnOperands : Prop :=
  ∀ (i : Instr) (s1 s2 : State),
    (∃ l a w, i = .genLcg l a w ∨ i = .genPm l a w ∨ i = .genPcg32 l a w ∨ i = .genSm64 l a w) →
    s1.inFlight = some i → s2.inFlight = some i → s1.op = s2.op → s1.cfg.pmMult = s2.cfg.pmMult →
    ∃ t1 t2, exec i s1 = .next t1 ∧ exec i s2 = .next t2 ∧
      t1.res = t2.res ∧ t1.stateLo = t2.stateLo ∧ t1.stateHi = t2.stateHi ∧
      (∀ j, j < s1.op.nbits.toNat →
        t1.bitmem.read (s1.op.dst.toNat + j) = t2.bitmem.read (s1.op.dst.toNat + j) ∧
        (t1.bitmem.read (s1.op.dst.toNat + j)).isSome = true) ∧
      (s1.op.nbits = 0 → t1.res = {} ∧ t1.elapsed = 0 ∧ ∀ a, t1.bitmem.read a = s1.bitmem.read a)

/-! ## GEN_LFSR -/

/-- The completion of GEN_LFSR (42 R170, R171, R172): from the L bits `init` at SRC and the L coefficients `c` at
POLYMEM bits 1..L it writes the first n bits of the sequence that starts with `init` and obeys the recurrence; STATE
holds the last 64 of them, the newest at bit 0. LSBF is ignored. -/
def Obligations.LfsrCompletes : Prop :=
  ∀ (s : State) (lsbf : Bool) (width : Nat) (init c : List Bool), s.inFlight = some (.genLfsr lsbf width) →
    s.bitmem.wf → s.polymem.wf →
    init.length = s.op.lfsrL.toNat → holdsBits s.bitmem s.op.src.toNat init →
    c.length = s.op.lfsrL.toNat → holdsBits s.polymem 1 c →
    let n := s.op.nbits.toNat
    let l := s.op.lfsrL.toNat
    ∃ t seq, exec (.genLfsr lsbf width) s = .next t ∧ completedFrom s t ∧
      (seq.length = max n l ∧ seq.take l = init ∧ Reference.Generates l (fun i => c.getD (i - 1) false) seq) ∧
      t.res = { res0 := s.op.nbits, res1 := s.op.lfsrL } ∧
      holdsBits t.bitmem s.op.dst.toNat (seq.take n) ∧ sameOutside s.bitmem t.bitmem s.op.dst.toNat n ∧
      t.polymem = s.polymem ∧
      (∀ i, i < 64 → (t.stateHi ++ t.stateLo).getLsbD i = (decide (i < n) && seq.getD (n - 1 - i) false)) ∧
      t.elapsed = (if n = 0 then 0 else Config.elapsedDraw s.draws)

/-! ## RANK -/

/-- The completion of RANK (43 R185, R187): `rows k` are the rows of matrix k read from BITMEM row by row; RES0 to RES6
are the number of matrices, the three class counts, the minimum rank, the last rank and the tail length. -/
def Obligations.RankCompletes : Prop :=
  ∀ (s : State) (rows : Nat → List Word), s.inFlight = some .rank → s.bitmem.wf → 1024 ≤ s.op.len.toNat →
    let n := s.op.len.toNat
    let count := n / 1024
    (∀ k, k < count → (rows k).length = 32 ∧ ∀ r c, r < 32 → c < 32 →
      s.bitmem.read (s.op.src.toNat + 1024 * k + 32 * r + c) = some (((rows k).getD r 0).getLsbD c)) →
    ∃ t least, exec .rank s = .next t ∧ completedFrom s t ∧ t.bitmem = s.bitmem ∧ t.polymem = s.polymem ∧
      t.stateLo = 0 ∧ t.stateHi = 0 ∧ t.elapsed = Config.elapsedDraw s.draws ∧
      (∀ k, k < count → least ≤ rankGF2 (rows k)) ∧ (∃ k, k < count ∧ least = rankGF2 (rows k)) ∧
      t.res =
        { res0 := BitVec.ofNat 32 count
          res1 := BitVec.ofNat 32 ((Finset.range count).filter fun k => rankGF2 (rows k) = 32).card
          res2 := BitVec.ofNat 32 ((Finset.range count).filter fun k => rankGF2 (rows k) = 31).card
          res3 := BitVec.ofNat 32 ((Finset.range count).filter fun k => rankGF2 (rows k) ≤ 30).card
          res4 := BitVec.ofNat 32 least
          res5 := BitVec.ofNat 32 (rankGF2 (rows (count - 1)))
          res6 := BitVec.ofNat 32 (n % 1024) }

/-- 43 R186: the number the elimination returns is the rank of the 32×32 matrix over GF(2), the number of linearly
independent rows. -/
def Obligations.EliminationComputesTheRank : Prop :=
  ∀ rows : List Word, rows.length = 32 → rankGF2 rows = (Reference.gf2Matrix rows).rank

/-! ## DFT -/

/-- The completion of DFT (44 R202): RES0 = n, RES1 = the number of components k < K with the verdict 1, RES2 = K,
RES3 = the number of ones. The verdicts are those of DftVerdictIsExactOutsideTheBand. -/
def Obligations.DftCompletes : Prop :=
  ∀ (s : State) (bits : List Bool), s.inFlight = some .dft → s.bitmem.wf → 2 ≤ s.op.len.toNat →
    bits.length = s.op.len.toNat → holdsBits s.bitmem s.op.src.toNat bits →
    let n := s.op.len.toNat
    let power := powerSpectrum firstPrecision bits
    ∃ t, exec .dft s = .next t ∧ completedFrom s t ∧ t.bitmem = s.bitmem ∧ t.polymem = s.polymem ∧
      t.stateLo = 0 ∧ t.stateHi = 0 ∧ t.elapsed = Config.elapsedDraw s.draws ∧
      t.res =
        { res0 := s.op.len
          res1 := BitVec.ofNat 32 ((Finset.range (n / 2)).filter fun k =>
            dftVerdict s.cfg bits k (power.getD k 0) (Config.dftVerdictDraw s.draws k) = true).card
          res2 := BitVec.ofNat 32 (n / 2)
          res3 := BitVec.ofNat 32 ((Finset.range n).filter fun j => bits.getD j false = true).card }

/-- 44 R201: for every component k < K the verdict is the exact comparison `P_k < τ` whenever |P_k - τ| > DFT_TOL·τ,
and what is drawn whenever |P_k - τ| ≤ DFT_TOL·τ; and so N1 lies between N1_lo and N1_hi. -/
def Obligations.DftVerdictIsExactOutsideTheBand : Prop :=
  ∀ (cfg : Config) (bits : List Bool), cfg.valid → 2 ≤ bits.length →
    let power := powerSpectrum firstPrecision bits
    let tau := Reference.threshold bits.length
    let tol := Reference.tolerance cfg
    (∀ (k : Nat) (draw : Bool), k < bits.length / 2 →
      (tol * tau < |Reference.power bits k - tau| →
        (dftVerdict cfg bits k (power.getD k 0) draw = true ↔ Reference.power bits k < tau)) ∧
      (|Reference.power bits k - tau| ≤ tol * tau → dftVerdict cfg bits k (power.getD k 0) draw = draw)) ∧
    ∀ draws : Nat,
      Set.ncard { k | k < bits.length / 2 ∧ Reference.power bits k < tau * (1 - tol) } ≤ dftCount cfg draws bits ∧
      dftCount cfg draws bits ≤ Set.ncard { k | k < bits.length / 2 ∧ Reference.power bits k ≤ tau * (1 + tol) }

/-! ## BM and LINCOMP -/

/-- The completion of BM (45 R218): RES0 = L, RES1 = n, RES2 = deg C, and POLYMEM bits 0..n are c_0..c_n of the L and C
of Berlekamp-Massey; POLYMEM above n, BITMEM and STATE are unchanged or 0. -/
def Obligations.BmCompletes : Prop :=
  ∀ (s : State) (bits : List Bool), s.inFlight = some .bm → s.bitmem.wf →
    bits.length = s.op.len.toNat → holdsBits s.bitmem s.op.src.toNat bits →
    let n := s.op.len.toNat
    let l := (berlekampMassey bits).1
    let c := polyCoeff (berlekampMassey bits).2
    ∃ t d, exec .bm s = .next t ∧ completedFrom s t ∧ t.bitmem = s.bitmem ∧
      (∀ i, i ≤ n → t.polymem.read i = some (c i)) ∧ sameOutside s.polymem t.polymem 0 (n + 1) ∧
      t.stateLo = 0 ∧ t.stateHi = 0 ∧ t.elapsed = Config.elapsedDraw s.draws ∧
      c d = true ∧ (∀ i, d < i → c i = false) ∧
      t.res = { res0 := BitVec.ofNat 32 l, res1 := s.op.len, res2 := BitVec.ofNat 32 d }

/-- 45 R216: Berlekamp-Massey is exactly the variant of the spec, which pins C, also where 2·L > n: the machine's L and
the coefficients of its C are those of the rule's iterations on C, B, L and m. -/
def Obligations.BerlekampMasseyIsTheVariantOfTheSpec : Prop :=
  ∀ s : List Bool,
    (berlekampMassey s).1 = (Reference.massey s s.length).l ∧
    ∀ i, polyCoeff (berlekampMassey s).2 i = (Reference.massey s s.length).c i

/-- 45 R217, first properties: the C of Berlekamp-Massey has c_0 = 1 and degree at most L ≤ n, and generates the
sequence with length L. -/
def Obligations.BerlekampMasseyGeneratesTheBlock : Prop :=
  ∀ s : List Bool,
    let l := (berlekampMassey s).1
    let c := polyCoeff (berlekampMassey s).2
    c 0 = true ∧ (∀ i, l < i → c i = false) ∧ l ≤ s.length ∧ Reference.Generates l c s

/-- 45 R215 and R217: no shorter register generates the sequence, so L is its linear complexity. -/
def Obligations.BerlekampMasseyLengthIsMinimal : Prop :=
  ∀ (s : List Bool) (l : Nat) (c : Nat → Bool), Reference.Generates l c s → (berlekampMassey s).1 ≤ l

/-- 42 R173: BM over a block of M bits leaves L and C; GEN_LFSR with LFSR_L = L, from the block, with NBITS = M, writes a
copy of the block. `t1` is the state BM leaves, `s2` a state in which GEN_LFSR is in flight on its POLYMEM. -/
def Obligations.LfsrReplaysTheBlockOfBm : Prop :=
  ∀ (s1 s2 t1 : State) (block : List Bool) (lsbf : Bool) (width : Nat),
    s1.inFlight = some .bm → s1.bitmem.wf → s1.polymem.wf →
    block.length = s1.op.len.toNat → holdsBits s1.bitmem s1.op.src.toNat block →
    exec .bm s1 = .next t1 →
    s2.inFlight = some (.genLfsr lsbf width) → s2.bitmem.wf → s2.polymem = t1.polymem →
    s2.op.lfsrL = t1.res.res0 → s2.op.nbits = s1.op.len → holdsBits s2.bitmem s2.op.src.toNat block →
    ∃ t2, exec (.genLfsr lsbf width) s2 = .next t2 ∧ holdsBits t2.bitmem s2.op.dst.toNat block

/-- The completion of LINCOMP (45 R219, R220, R221): N = n div M blocks of M bits, M = 500 when BLK is 0; RES0 = N and
RES1 to RES7 are the numbers of blocks in the categories 0 to 6 of min(6, max(0, D + 3)). -/
def Obligations.LincompCompletes : Prop :=
  ∀ (s : State) (bits : List Bool), s.inFlight = some .lincomp → s.bitmem.wf →
    let n := s.op.len.toNat
    let m := if s.op.blk.toNat = 0 then 500 else s.op.blk.toNat
    let count := n / m
    bits.length = count * m → holdsBits s.bitmem s.op.src.toNat bits →
    let l (i : Nat) : Int := (berlekampMassey ((bits.drop (i * m)).take m)).1
    let d (i : Nat) : Int := if m % 2 = 0 then l i - (m : Int) / 2 else ((m : Int) + 1) / 2 - l i
    let nu (k : Int) : Word :=
      BitVec.ofNat 32 ((Finset.range count).filter fun i => min 6 (max 0 (d i + 3)) = k).card
    ∃ t, exec .lincomp s = .next t ∧ completedFrom s t ∧ t.bitmem = s.bitmem ∧ t.polymem = s.polymem ∧
      t.stateLo = 0 ∧ t.stateHi = 0 ∧ t.elapsed = Config.elapsedDraw s.draws ∧
      t.res = { res0 := BitVec.ofNat 32 count, res1 := nu 0, res2 := nu 1, res3 := nu 2, res4 := nu 3, res5 := nu 4,
                res6 := nu 5, res7 := nu 6 }

/-- 45 R220 and R222: with ε = (M/3 + 2/9)/2^M in (0, 1/2), the published statistic T is D + ε for even M and D - ε for
odd M; the category is min(6, max(0, D + 3)); and it is the published bucket of any evaluation of T with an error below
1/2 - ε, T itself among them, so that rounding cannot change a category. -/
def Obligations.CategoryIsThePublishedBucket : Prop :=
  ∀ l m : Nat, 1 ≤ m →
    let ε : ℚ := (m / 3 + 2 / 9) / 2 ^ m
    let d : Int := if m % 2 = 0 then (l : Int) - (m : Int) / 2 else ((m : Int) + 1) / 2 - l
    (0 < ε ∧ ε < 1 / 2) ∧
    Reference.complexityStatistic l m = (if m % 2 = 0 then (d : ℚ) + ε else (d : ℚ) - ε) ∧
    (complexityCategory l m : Int) = min 6 (max 0 (d + 3)) ∧
    ∀ t : ℚ, |t - Reference.complexityStatistic l m| < 1 / 2 - ε → Reference.bucket t = complexityCategory l m

/-! ## Unmarked input, and what results depend on -/

/-- 10_state R54: a command that meets an input bit without a written mark stops with the model fault UninitRead at the
lowest such address of its source region; GEN_LFSR with a whole initial state, at the lowest unmarked coefficient. -/
def Obligations.UnmarkedInputIsTheModelFault : Prop :=
  ∀ (s : State) (i : Instr), s.inFlight = some i → s.bitmem.wf → s.polymem.wf →
    (∀ a, s.op.src.toNat ≤ a → a < s.op.src.toNat + readBits i s.op → s.bitmem.read a = none →
      (∀ x, s.op.src.toNat ≤ x → x < a → s.bitmem.read x ≠ none) →
      exec i s = .fault (.uninitRead .bitmem a)) ∧
    (∀ lsbf width a, i = .genLfsr lsbf width →
      (∀ x, s.op.src.toNat ≤ x → x < s.op.src.toNat + s.op.lfsrL.toNat → s.bitmem.read x ≠ none) →
      1 ≤ a → a ≤ s.op.lfsrL.toNat → s.polymem.read a = none →
      (∀ x, 1 ≤ x → x < a → s.polymem.read x ≠ none) →
      exec i s = .fault (.uninitRead .polymem a))

/-- 43 R188, 44 R204, 45 R223: the results of RANK, DFT, BM and LINCOMP, and the polynomial BM writes, depend only on OP,
the parameters and the input bits (for DFT also on the draws); two states that agree on these give the same results,
whatever else they hold. -/
def Obligations.AnalysisDependsOnlyOnItsInput : Prop :=
  ∀ (i : Instr) (s1 s2 t1 : State), (i = .rank ∨ i = .dft ∨ i = .bm ∨ i = .lincomp) →
    s1.inFlight = some i → s2.inFlight = some i → s1.op = s2.op → s1.cfg = s2.cfg → s1.draws = s2.draws →
    s1.bitmem.wf → s2.bitmem.wf →
    (∀ a, s1.op.src.toNat ≤ a → a < s1.op.src.toNat + readBits i s1.op → s1.bitmem.read a = s2.bitmem.read a) →
    exec i s1 = .next t1 →
    ∃ t2, exec i s2 = .next t2 ∧ t2.res = t1.res ∧
      (i = .bm → ∀ a, a ≤ s1.op.len.toNat → t2.polymem.read a = t1.polymem.read a)

/-! ## Registers and windows -/

/-- 20_memory R63: any access in the aperture that is not an aligned access of 4 bytes is a bus error, recorded for the
host, with no effect on any state, OVR included. -/
def Obligations.BusErrorHasNoEffect : Prop :=
  ∀ (s : State) (a : Access) (off : Nat), a.addr = s.cfg.rngeBase + off → off < 0x200000 →
    (a.size ≠ 4 ∨ off % 4 ≠ 0) →
    inputStep (.access a) s = .next { s with responses := .busError off a.size :: s.responses }

/-- 10_state R31 and R44: ID, VERSION and the CAP registers read their constants, and writes to them have no effect. -/
def Obligations.IdentityAndCapabilityRegisters : Prop :=
  ∀ (s : State) (off : Nat) (v : Word),
    ((off = 0x000 ∧ v = 0x524E4745) ∨ (off = 0x004 ∧ v = 0x00000007) ∨
      (off = 0x0C0 ∧ v = BitVec.ofNat 32 s.cfg.bitmemBits) ∨ (off = 0x0C4 ∧ v = BitVec.ofNat 32 s.cfg.lcMMax) ∨
      (off = 0x0C8 ∧ v = BitVec.ofNat 32 s.cfg.dftNMax) ∨ (off = 0x0CC ∧ v = BitVec.ofNat 32 s.cfg.pmMult)) →
    inputStep (hostRead s.cfg off) s = .next { s with responses := .data off v :: s.responses } ∧
    ∀ x, inputStep (hostWrite s.cfg off x) s = .next { s with responses := .written off :: s.responses }

/-- 10_state R23 and R40 to R43: RES0 to RES7, STATE_LO, STATE_HI and ELAPSED read their values at offsets 0x080 to
0x0A8, CMD reads 0, and a write to a read-only one has no effect. -/
def Obligations.ResultRegistersReadTheirValues : Prop :=
  ∀ (s : State) (off : Nat) (v : Word),
    (off, v) ∈ [ (0x080, s.res.res0), (0x084, s.res.res1), (0x088, s.res.res2), (0x08C, s.res.res3),
                 (0x090, s.res.res4), (0x094, s.res.res5), (0x098, s.res.res6), (0x09C, s.res.res7),
                 (0x0A0, s.stateLo), (0x0A4, s.stateHi), (0x0A8, s.elapsed), (0x010, (0 : Word)) ] →
    inputStep (hostRead s.cfg off) s = .next { s with responses := .data off v :: s.responses } ∧
    (off ≠ 0x010 → ∀ x, inputStep (hostWrite s.cfg off x) s = .next { s with responses := .written off :: s.responses })

/-- 10_state R45: an unmapped offset of the REG window reads 0 and ignores writes, and no status bit is set. (20_memory
R61 says the same of offsets 0x001000 to 0x07FFFF.) -/
def Obligations.UnmappedOffsetsReadZero : Prop :=
  ∀ (s : State) (off : Nat), off % 4 = 0 →
    ((0x014 ≤ off ∧ off < 0x020) ∨ (0x060 ≤ off ∧ off < 0x080) ∨ (0x0AC ≤ off ∧ off < 0x0C0) ∨
      (0x0D0 ≤ off ∧ off < 0x080000)) →
    inputStep (hostRead s.cfg off) s = .next { s with responses := .data off 0 :: s.responses } ∧
    ∀ v, inputStep (hostWrite s.cfg off v) s = .next { s with responses := .written off :: s.responses }

/-- 10_state R24 to R30 and 70_reset R278: an operand register reads as last written, all 32 bits; a write changes that
register alone, at any time, and not the latched OP. -/
def Obligations.OperandRegistersHoldWhatIsWritten : Prop :=
  ∀ (s : State) (r : OperandReg) (v : Word),
    inputStep (hostRead s.cfg (operandOffset r)) s =
      .next { s with responses := .data (operandOffset r) (s.regs.get r) :: s.responses } ∧
    ∃ t, inputStep (hostWrite s.cfg (operandOffset r) v) s = .next t ∧
      t.regs.get r = v ∧ (∀ x, x ≠ r → t.regs.get x = s.regs.get x) ∧
      t = { s with regs := t.regs, responses := .written (operandOffset r) :: s.responses }

/-- 10_state R34: the bits of STATUS as read, and what a write of `v` to STATUS clears, at any time. -/
def Obligations.StatusRegister : Prop :=
  ∀ (s : State) (v : Word),
    ∃ word, inputStep (hostRead s.cfg 0x00C) s = .next { s with responses := .data 0x00C word :: s.responses } ∧
      (word.getLsbD 0 = s.busy ∧ word.getLsbD 1 = s.status.done ∧ word.getLsbD 2 = s.status.err ∧
        word.getLsbD 3 = s.status.insuff ∧ word.getLsbD 4 = s.status.ovr ∧ word.extractLsb' 5 3 = 0#3 ∧
        word.extractLsb' 8 8 = s.status.errCode.code ∧ word.extractLsb' 16 8 = s.status.errInfo ∧
        word.extractLsb' 24 8 = 0#8) ∧
      inputStep (hostWrite s.cfg 0x00C v) s = .next
        { s with
          status :=
            { done := s.status.done && !v.getLsbD 1
              err := s.status.err && !v.getLsbD 2
              insuff := s.status.insuff && !v.getLsbD 3
              ovr := s.status.ovr && !v.getLsbD 4
              errCode := if v.getLsbD 2 then .none else s.status.errCode
              errInfo := if v.getLsbD 2 then 0 else s.status.errInfo }
          responses := .written 0x00C :: s.responses }

/-- 10_state R32, R33 and 70_reset R272: CTRL reads IRQ_EN in bit 0 and 0 elsewhere; a write with bit 1 clear sets IRQ_EN
to bit 0; a write with bit 1 set is the soft reset, whatever bit 0 is, and with no command in flight changes no
memory. -/
def Obligations.ControlRegister : Prop :=
  ∀ (s : State) (v : Word),
    inputStep (hostRead s.cfg 0x008) s =
      .next { s with responses := .data 0x008 (if s.irqEn then 1 else 0) :: s.responses } ∧
    (v.getLsbD 1 = false → inputStep (hostWrite s.cfg 0x008 v) s =
      .next { s with irqEn := v.getLsbD 0, responses := .written 0x008 :: s.responses }) ∧
    (v.getLsbD 1 = true → ∃ t, inputStep (hostWrite s.cfg 0x008 v) s = .next t ∧
      t.irqEn = false ∧ t.statusWord = 0 ∧ (∀ r, t.regs.get r = 0) ∧ t.res = {} ∧ t.stateLo = 0 ∧ t.stateHi = 0 ∧
      t.elapsed = 0 ∧ t.inFlight = none ∧ t.irq = false ∧
      (s.busy = false → t.bitmem = s.bitmem ∧ t.polymem = s.polymem))

/-- 70_reset R273: a soft reset while a command is in flight ends it with no completion, no RES, STATE or ELAPSED value
and no DONE, and clears the written marks of its destination region, and of no other bit: [DST, DST + NBITS) for PACK and
the five generators, POLYMEM bits 0..LEN for BM, none for RANK, DFT and LINCOMP. -/
def Obligations.SoftResetUnmarksTheAbortedRegion : Prop :=
  ∀ (s : State) (i : Instr) (v : Word), s.inFlight = some i → v.getLsbD 1 = true →
    let region : Nat := if i ∈ [.rank, .dft, .bm, .lincomp] then 0 else s.op.nbits.toNat
    ∃ t, inputStep (hostWrite s.cfg 0x008 v) s = .next t ∧ t.busy = false ∧ t.status.done = false ∧
      t.res = {} ∧ t.stateLo = 0 ∧ t.stateHi = 0 ∧ t.elapsed = 0 ∧
      (∀ a, s.op.dst.toNat ≤ a → a < s.op.dst.toNat + region → t.bitmem.read a = none) ∧
      sameOutside s.bitmem t.bitmem s.op.dst.toNat region ∧
      (∀ a, t.polymem.read a = if i = .bm ∧ a ≤ s.op.len.toNat then none else s.polymem.read a)

/-- 70_reset R270: after a hardware reset every register has its reset value, no command is in flight, IRQ is 0, and no
bit is marked; State.reset is such a state. That an empty OP is held as all zero is the model's choice, log entry 8. -/
def Obligations.HardwareReset : Prop :=
  ∀ s : State, ∃ t, inputStep .hardReset s = .next t ∧
    ∀ u, (u = t ∨ u = State.reset) →
      u.ctrlWord = 0 ∧ u.statusWord = 0 ∧ (∀ r, u.regs.get r = 0) ∧ u.res = {} ∧ u.stateLo = 0 ∧ u.stateHi = 0 ∧
      u.elapsed = 0 ∧ u.inFlight = none ∧ u.op = OpSet.empty ∧ u.irq = false ∧
      u.readReg .id = 0x524E4745 ∧ u.readReg .version = 7 ∧
      u.readReg .capBitmem = BitVec.ofNat 32 u.cfg.bitmemBits ∧ u.readReg .capLcm = BitVec.ofNat 32 u.cfg.lcMMax ∧
      u.readReg .capDftn = BitVec.ofNat 32 u.cfg.dftNMax ∧ u.readReg .capPmmult = BitVec.ofNat 32 u.cfg.pmMult ∧
      (∀ a, u.bitmem.read a = none ∧ u.polymem.read a = none)

/-- 20_memory R65 to R68: with no command in flight, a window write of `v` to word j sets the bits 32·j+b to v[b] and no
other bit, and a read of word j returns the word of those bits, byte lane k carrying bits 8(4j+k)+i; a word past the
capacity reads 0 and ignores writes. -/
def Obligations.WindowsReachTheirMemories : Prop :=
  ∀ (s : State) (sp : Space) (j : Nat) (v : Word), s.busy = false → windowHolds sp j → (s.mem sp).wf →
    (32 * j < capacityOf s.cfg sp →
      (∃ t, inputStep (hostWrite s.cfg (windowOffset sp j) v) s = .next t ∧
        (∀ b, b < 32 → (t.mem sp).read (32 * j + b) = some (v.getLsbD b)) ∧
        sameOutside (s.mem sp) (t.mem sp) (32 * j) 32 ∧
        t = { s.setMem sp (t.mem sp) with responses := .written (windowOffset sp j) :: s.responses }) ∧
      ((∀ b, b < 32 → (s.mem sp).read (32 * j + b) = some (v.getLsbD b)) →
        inputStep (hostRead s.cfg (windowOffset sp j)) s =
          .next { s with responses := .data (windowOffset sp j) v :: s.responses } ∧
        ∀ k i, k < 4 → i < 8 → (s.mem sp).read (8 * (4 * j + k) + i) = some ((byteLane v k).getLsbD i))) ∧
    (capacityOf s.cfg sp ≤ 32 * j →
      inputStep (hostWrite s.cfg (windowOffset sp j) v) s =
        .next { s with responses := .written (windowOffset sp j) :: s.responses } ∧
      inputStep (hostRead s.cfg (windowOffset sp j)) s =
        .next { s with responses := .data (windowOffset sp j) 0 :: s.responses })

/-- 10_state R54 for the host: a window read of a word with an unmarked bit is the model fault UninitRead, at the lowest
unmarked address of the word. -/
def Obligations.WindowReadOfUnmarkedBitFaults : Prop :=
  ∀ (s : State) (sp : Space) (j b : Nat), s.busy = false → windowHolds sp j → (s.mem sp).wf →
    32 * j < capacityOf s.cfg sp → b < 32 → (s.mem sp).read (32 * j + b) = none →
    (∀ x, x < b → (s.mem sp).read (32 * j + x) ≠ none) →
    inputStep (hostRead s.cfg (windowOffset sp j)) s = .fault (.uninitRead sp (32 * j + b))

/-! ## Whole-machine rules -/

/-- 10_state R39: while a command is in flight, a write to CMD and every read or write of a window is refused: it only
sets OVR, a refused read returns 0, and a command or word written is dropped. -/
def Obligations.AccessesRefusedWhileBusy : Prop :=
  ∀ (s : State) (v : Word) (sp : Space) (j : Nat), s.busy = true → windowHolds sp j →
    let refused (r : Response) : Host.Outcome State Fault Refusal :=
      .next { s with status := { s.status with ovr := true }, responses := r :: s.responses }
    inputStep (hostWrite s.cfg 0x010 v) s = refused (.written 0x010) ∧
    inputStep (hostRead s.cfg (windowOffset sp j)) s = refused (.data (windowOffset sp j) 0) ∧
    inputStep (hostWrite s.cfg (windowOffset sp j) v) s = refused (.written (windowOffset sp j))

/-- 10_state R39: OVR is set only by a refused access, and "stays 1 until a STATUS write with bit 4 set or a reset
clears it". -/
def Obligations.OverrunIsSetAndClearedOnlyAsNamed : Prop :=
  ∀ s t : State, step s = .next t →
    (s.status.ovr = false → t.status.ovr = true →
      s.busy = true ∧ ∃ e, s.nextInput = some e ∧
        ((∃ v, e = hostWrite s.cfg 0x010 v) ∨
         ∃ sp j, windowHolds sp j ∧ (e = hostRead s.cfg (windowOffset sp j) ∨
           ∃ v, e = hostWrite s.cfg (windowOffset sp j) v))) ∧
    (s.status.ovr = true → t.status.ovr = false →
      ∃ e, s.nextInput = some e ∧
        (isReset s.cfg e ∨ ∃ v : Word, v.getLsbD 4 = true ∧ e = hostWrite s.cfg 0x00C v))

/-- 10_state R36: "Only a STATUS write with bit 1 set, a new issue or a reset clears DONE"; and DONE is set only by a
completion of the engine or by an issue that ends at once. -/
def Obligations.DoneIsSetAndClearedOnlyAsNamed : Prop :=
  ∀ s t : State, step s = .next t →
    (s.status.done = true → t.status.done = false →
      ∃ e, s.nextInput = some e ∧
        (isReset s.cfg e ∨ (∃ v : Word, v.getLsbD 1 = true ∧ e = hostWrite s.cfg 0x00C v) ∨
         (s.busy = false ∧ ∃ w, e = hostWrite s.cfg 0x010 w))) ∧
    (s.status.done = false → t.status.done = true →
      t.busy = false ∧
        ((s.busy = true ∧ s.nextInput = none) ∨
         (s.busy = false ∧ ∃ w, s.nextInput = some (hostWrite s.cfg 0x010 w))))

/-- 60_exceptions R251: the output IRQ is enabled by CTRL.IRQ_EN and pending in STATUS.DONE; it is cleared by a STATUS
write with bit 1 set, by the next issue, by clearing IRQ_EN (which keeps DONE), or by a reset, and by nothing else. -/
def Obligations.InterruptOutput : Prop :=
  (∀ s : State, s.irq = true ↔ s.irqEn = true ∧ s.status.done = true) ∧
  (∀ s t : State, step s = .next t → s.irq = true → t.irq = false →
    ∃ e, s.nextInput = some e ∧
      (isReset s.cfg e ∨ (∃ v : Word, v.getLsbD 1 = true ∧ e = hostWrite s.cfg 0x00C v) ∨
       (s.busy = false ∧ ∃ w, e = hostWrite s.cfg 0x010 w) ∨
       (∃ v : Word, v.getLsbD 0 = false ∧ e = hostWrite s.cfg 0x008 v ∧ t.status.done = true)))

/-- A bit of memory changes, in value or mark, only in a completion that writes it, in a window write while no command
is in flight, or in a reset (20_memory R67, R70, R73, 70_reset R272). -/
def Obligations.MemoryChangesOnlyAsNamed : Prop :=
  ∀ s t : State, step s = .next t →
    (∀ a, t.bitmem.read a ≠ s.bitmem.read a →
      (∃ i, s.inFlight = some i ∧ s.nextInput = none ∧
        s.op.dst.toNat ≤ a ∧ a < s.op.dst.toNat + writtenBits i s.op) ∨
      (s.busy = false ∧ ∃ v, s.nextInput = some (hostWrite s.cfg (0x100000 + 4 * (a / 32)) v)) ∨
      (∃ e, s.nextInput = some e ∧ isReset s.cfg e)) ∧
    (∀ a, t.polymem.read a ≠ s.polymem.read a →
      (s.inFlight = some .bm ∧ s.nextInput = none ∧ a ≤ s.op.len.toNat) ∨
      (s.busy = false ∧ ∃ v, s.nextInput = some (hostWrite s.cfg (0x080000 + 4 * (a / 32)) v)) ∨
      (∃ e, s.nextInput = some e ∧ isReset s.cfg e))

/-- Each register changes only as its rule says: the operand registers by a host write or a reset (10_state R50), CTRL by
a CTRL write or a reset (R33), OP by an issue or a reset (R50), the result registers by an issue, a completion or a reset
(R36, R41, R42, R43), ERR, ERRCODE and ERRINFO by an issue, a STATUS write with bit 2 set or a reset, INSUFF by an issue, a
STATUS write with bit 3 set or a reset (R34, R36 to R38, R47), DONE and BUSY besides by a completion, OVR by a refused
access, a STATUS write with bit 4 set or a reset (R39); the parameters never change (R44). -/
def Obligations.RegistersChangeOnlyAsNamed : Prop :=
  ∀ s t : State, step s = .next t →
    let byReset := ∃ e, s.nextInput = some e ∧ isReset s.cfg e
    let byIssue := s.busy = false ∧ ∃ w, s.nextInput = some (hostWrite s.cfg 0x010 w)
    let byCompletion := s.busy = true ∧ s.nextInput = none
    let byStatus (bit : Nat) := ∃ v : Word, v.getLsbD bit = true ∧ s.nextInput = some (hostWrite s.cfg 0x00C v)
    t.cfg = s.cfg ∧
    (∀ r, t.regs.get r ≠ s.regs.get r →
      byReset ∨ ∃ v, s.nextInput = some (hostWrite s.cfg (operandOffset r) v)) ∧
    (t.irqEn ≠ s.irqEn → byReset ∨ ∃ v, s.nextInput = some (hostWrite s.cfg 0x008 v)) ∧
    (t.op ≠ s.op → byReset ∨ byIssue) ∧
    ((t.res ≠ s.res ∨ t.stateLo ≠ s.stateLo ∨ t.stateHi ≠ s.stateHi ∨ t.elapsed ≠ s.elapsed) →
      byReset ∨ byIssue ∨ byCompletion) ∧
    ((t.status.err ≠ s.status.err ∨ t.status.errCode ≠ s.status.errCode ∨ t.status.errInfo ≠ s.status.errInfo) →
      byReset ∨ byIssue ∨ byStatus 2) ∧
    (t.status.insuff ≠ s.status.insuff → byReset ∨ byIssue ∨ byStatus 3) ∧
    (t.status.done ≠ s.status.done → byReset ∨ byIssue ∨ byStatus 1 ∨ byCompletion) ∧
    (t.busy ≠ s.busy → byReset ∨ byIssue ∨ byCompletion) ∧
    (t.status.ovr ≠ s.status.ovr → byReset ∨ byStatus 4 ∨ (s.busy = true ∧ t.status.ovr = true))

/-- A step never answers a refusal, and its only fault is UninitRead: at a completion, or at a window read with no
command in flight; every other step goes on (60_exceptions R259, R244). With canonical memories the address reported is
an address without a written mark (10_state R54). -/
def Obligations.OnlyUnmarkedReadsStop : Prop :=
  ∀ s : State,
    (∃ t, step s = .next t) ∨
    (∃ sp a, step s = .fault (.uninitRead sp a) ∧
      (s.bitmem.wf → s.polymem.wf → (s.mem sp).read a = none) ∧
      ((∃ i, s.inFlight = some i ∧ s.nextInput = none ∧ 0 < readBits i s.op) ∨
       (s.busy = false ∧ ∃ j, windowHolds sp j ∧ s.nextInput = some (hostRead s.cfg (windowOffset sp j)))))

/-! ## The invariant -/

/-- State.reset meets the invariant. -/
def Obligations.ResetMeetsTheInvariant : Prop := State.reset.Inv

/-- Every step keeps the invariant: legal parameters, canonical memories inside their capacity, agreeing error fields
without the reserved codes (60_exceptions R249), and a command in flight that has passed its checks with BUSY = 1 and
no ending or result to see (10_state R35, R36, 20_memory R70). -/
def Obligations.StepKeepsTheInvariant : Prop :=
  ∀ s t : State, s.Inv → step s = .next t → t.Inv
end

