-- ==== Sys2Proof/Laws/Dft.lean ====
section
/-! SUPPORT. What the verdicts of DFT can be: the refinement of a component's side, said once. -/

namespace Sys2Proof.Machine

/-- The side that the enclosures of precision `p` certify for component `k`. -/
abbrev certifiedSide (cfg : Config) (bits : List Bool) (k p : Nat) : Option BandSide :=
  bandSide cfg p bits.length ((powerSpectrum p bits).getD k 0)

/-- The refinement answers the side at this precision, and else goes on with twice the precision. -/
theorem refineSide_eq (cfg : Config) (bits : List Bool) (k p : Nat) :
    refineSide cfg bits k p = (certifiedSide cfg bits k p).or (refineSide cfg bits k (2 * p)) := by
  rw [refineSide, certifiedSide]
  cases bandSide cfg p bits.length ((powerSpectrum p bits).getD k 0) <;> rfl

/-- The refinement answers the side that the first certifying precision of p, 2p, 4p, … gives. -/
theorem refineSide_of_certified (cfg : Config) (bits : List Bool) (k : Nat) (side : BandSide) (j p : Nat)
    (before : ∀ i, i < j → certifiedSide cfg bits k (2 ^ i * p) = none)
    (at_j : certifiedSide cfg bits k (2 ^ j * p) = some side) : refineSide cfg bits k p = some side := by
  induction j generalizing p with
  | zero => rw [refineSide_eq, show p = 2 ^ 0 * p by simp, at_j]; rfl
  | succ j ih =>
    have h0 : certifiedSide cfg bits k p = none := by simpa using before 0 (by omega)
    rw [refineSide_eq, h0, Option.none_or]
    refine ih (2 * p) (fun i hi => ?_) ?_
    · rw [show 2 ^ i * (2 * p) = 2 ^ (i + 1) * p by ring]; exact before (i + 1) (by omega)
    · rw [show 2 ^ j * (2 * p) = 2 ^ (j + 1) * p by ring]; exact at_j

/-- A side the refinement answers is certified at one of the precisions p, 2p, 4p, …. -/
theorem certified_of_refineSide (cfg : Config) (bits : List Bool) (k p : Nat) (side : BandSide)
    (h : refineSide cfg bits k p = some side) : ∃ j, certifiedSide cfg bits k (2 ^ j * p) = some side := by
  refine refineSide.partial_correctness cfg bits k
    (fun p side => ∃ j, certifiedSide cfg bits k (2 ^ j * p) = some side) ?_ p side h
  intro f ih p side h
  split at h
  · next side' h' => exact ⟨0, by simpa [certifiedSide, ← h] using h'⟩
  · next h' =>
    obtain ⟨j, hj⟩ := ih _ _ h
    exact ⟨j + 1, by rw [show 2 ^ (j + 1) * p = 2 ^ j * (2 * p) by ring]; exact hj⟩

/-- The refinement answers a side if and only if some precision certifies one: it is none only where P_k never parts from
the bounds of the band. -/
theorem refineSide_isSome_iff (cfg : Config) (bits : List Bool) (k p : Nat) :
    (refineSide cfg bits k p).isSome = true ↔ ∃ j, (certifiedSide cfg bits k (2 ^ j * p)).isSome = true := by
  constructor
  · intro h
    obtain ⟨side, hs⟩ := Option.isSome_iff_exists.mp h
    obtain ⟨j, hj⟩ := certified_of_refineSide cfg bits k p side hs
    exact ⟨j, by simp [hj]⟩
  · intro h
    classical
    have hn := Nat.find_spec h
    obtain ⟨side, hs⟩ := Option.isSome_iff_exists.mp hn
    rw [refineSide_of_certified cfg bits k side (Nat.find h) p (fun i hi => ?_) hs]; · rfl
    simpa using Nat.find_min h hi

/-- The side of a component is the refinement from the first precision on. -/
theorem componentSide_eq_refineSide (cfg : Config) (bits : List Bool) (k : Nat) :
    componentSide cfg bits k ((powerSpectrum firstPrecision bits).getD k 0) = refineSide cfg bits k firstPrecision := by
  rw [refineSide]; rfl

@[simp] theorem sideVerdict_below (draw : Bool) : sideVerdict draw (some .below) = true := rfl
@[simp] theorem sideVerdict_inside (draw : Bool) : sideVerdict draw (some .inside) = draw := rfl
@[simp] theorem sideVerdict_above (draw : Bool) : sideVerdict draw (some .above) = false := rfl
@[simp] theorem sideVerdict_none (draw : Bool) : sideVerdict draw none = draw := rfl

/-- There is one entry of the spectrum for each component counted. -/
@[simp] theorem powerSpectrum_length (p : Nat) (bits : List Bool) : (powerSpectrum p bits).length = bits.length / 2 := by
  simp [powerSpectrum]

end Sys2Proof.Machine
end

