-- ==== Sys2Proof/Laws/Encoding.lean ====
section
/-! SUPPORT. The four fields of an assembled command word (30_encoding R85, R96). -/

namespace Sys2Proof

theorem wordOpc_assemble (o : Octet) (l a : Bool) (w : Octet) : wordOpc (assemble o l a w) = o := by
  apply BitVec.eq_of_getLsbD_eq
  intro i hi
  simp only [wordOpc, assemble, BitVec.getLsbD_extractLsb', BitVec.getLsbD_or, BitVec.getLsbD_shiftLeft,
    BitVec.getLsbD_setWidth, Nat.zero_add]
  have h1 : i < 32 := by omega
  have h2 : i < 9 := by omega
  have h3 : i < 16 := by omega
  simp [hi, h1, h2, h3]

theorem wordLsbf_assemble (o : Octet) (l a : Bool) (w : Octet) : wordLsbf (assemble o l a w) = l := by
  simp [wordLsbf, assemble]

theorem wordSa_assemble (o : Octet) (l a : Bool) (w : Octet) : wordSa (assemble o l a w) = a := by
  simp [wordSa, assemble]

theorem wordWidth_assemble (o : Octet) (l a : Bool) (w : Octet) : wordWidth (assemble o l a w) = w := by
  apply BitVec.eq_of_getLsbD_eq
  intro i hi
  have h1 : 16 + i < 32 := by omega
  have h4 : ¬(16 + i < 16) := by omega
  simp only [wordWidth, assemble, BitVec.getLsbD_extractLsb', BitVec.getLsbD_or, BitVec.getLsbD_shiftLeft,
    BitVec.getLsbD_setWidth, BitVec.getLsbD_ofBool]
  have h5 : o.getLsbD (16 + i) = false := BitVec.getLsbD_of_ge _ _ (by omega)
  have h6 : ¬(16 + i - 8 = 0) := by omega
  have h7 : ¬(16 + i - 9 = 0) := by omega
  simp only [hi, h1, h5, decide_true, Bool.true_and, Bool.false_or, decide_eq_false h6, decide_eq_false h7,
    Bool.false_and, Bool.and_false, decide_eq_false h4, Bool.not_false, Nat.add_sub_cancel_left,
    decide_eq_true (show i < 32 by omega)]

/-- An encoded well-formed command carries its own fields. -/
theorem encode_fields {i : Instr} (h : i.wf = true) :
    wordOpc (encode i) = i.opcode ∧ wordLsbf (encode i) = i.lsbf ∧ wordSa (encode i) = i.sa ∧
      (wordWidth (encode i)).toNat = i.width := by
  refine ⟨wordOpc_assemble .., wordLsbf_assemble .., wordSa_assemble .., ?_⟩
  have hw : i.width < 256 := by simpa [Instr.wf] using h
  rw [encode, wordWidth_assemble, BitVec.toNat_ofNat]
  omega

/-- The OPC and fields of a command name that command. -/
theorem ofFields_self (i : Instr) (h : i.wf = true) :
    Instr.ofFields i.opcode i.lsbf i.sa (BitVec.ofNat 8 i.width) = some i := by
  have hw : i.width < 256 := by simpa [Instr.wf] using h
  have hm : i.width % 2 ^ 8 = i.width := Nat.mod_eq_of_lt hw
  cases i <;> simp_all [Instr.ofFields, Instr.opcode, Instr.lsbf, Instr.sa, Instr.width]

end Sys2Proof
end

