-- ==== Sys2Proof/Laws/State.lean ====
section
/-! SUPPORT. What each update of State does to each field: true by rfl, for simp. -/

namespace Sys2Proof.Machine

variable (s : State)

/-! `prepare` -/

@[simp] theorem State.prepare_cfg (w : Word) : (s.prepare w).cfg = s.cfg := rfl
@[simp] theorem State.prepare_irqEn (w : Word) : (s.prepare w).irqEn = s.irqEn := rfl
@[simp] theorem State.prepare_status (w : Word) : (s.prepare w).status = s.status.issueClear := rfl
@[simp] theorem State.prepare_regs (w : Word) : (s.prepare w).regs = s.regs := rfl
@[simp] theorem State.prepare_res (w : Word) : (s.prepare w).res = {} := rfl
@[simp] theorem State.prepare_stateLo (w : Word) : (s.prepare w).stateLo = 0 := rfl
@[simp] theorem State.prepare_stateHi (w : Word) : (s.prepare w).stateHi = 0 := rfl
@[simp] theorem State.prepare_elapsed (w : Word) : (s.prepare w).elapsed = 0 := rfl
@[simp] theorem State.prepare_bitmem (w : Word) : (s.prepare w).bitmem = s.bitmem := rfl
@[simp] theorem State.prepare_polymem (w : Word) : (s.prepare w).polymem = s.polymem := rfl
@[simp] theorem State.prepare_op (w : Word) : (s.prepare w).op = OpSet.latch s.regs w := rfl
@[simp] theorem State.prepare_flight (w : Word) : (s.prepare w).flight = s.flight := rfl
@[simp] theorem State.prepare_inputs (w : Word) : (s.prepare w).inputs = s.inputs := rfl
@[simp] theorem State.prepare_responses (w : Word) : (s.prepare w).responses = s.responses := rfl
@[simp] theorem State.prepare_turns (w : Word) : (s.prepare w).turns = s.turns := rfl
@[simp] theorem State.prepare_draws (w : Word) : (s.prepare w).draws = s.draws := rfl

/-! `fail` -/

@[simp] theorem State.fail_cfg (c : ErrCode) (i : Octet) : (s.fail c i).cfg = s.cfg := rfl
@[simp] theorem State.fail_irqEn (c : ErrCode) (i : Octet) : (s.fail c i).irqEn = s.irqEn := rfl
@[simp] theorem State.fail_status (c : ErrCode) (i : Octet) : (s.fail c i).status = s.status.setError c i := rfl
@[simp] theorem State.fail_regs (c : ErrCode) (i : Octet) : (s.fail c i).regs = s.regs := rfl
@[simp] theorem State.fail_res (c : ErrCode) (i : Octet) : (s.fail c i).res = s.res := rfl
@[simp] theorem State.fail_stateLo (c : ErrCode) (i : Octet) : (s.fail c i).stateLo = s.stateLo := rfl
@[simp] theorem State.fail_stateHi (c : ErrCode) (i : Octet) : (s.fail c i).stateHi = s.stateHi := rfl
@[simp] theorem State.fail_elapsed (c : ErrCode) (i : Octet) : (s.fail c i).elapsed = s.elapsed := rfl
@[simp] theorem State.fail_bitmem (c : ErrCode) (i : Octet) : (s.fail c i).bitmem = s.bitmem := rfl
@[simp] theorem State.fail_polymem (c : ErrCode) (i : Octet) : (s.fail c i).polymem = s.polymem := rfl
@[simp] theorem State.fail_op (c : ErrCode) (i : Octet) : (s.fail c i).op = s.op := rfl
@[simp] theorem State.fail_flight (c : ErrCode) (i : Octet) : (s.fail c i).flight = false := rfl
@[simp] theorem State.fail_inputs (c : ErrCode) (i : Octet) : (s.fail c i).inputs = s.inputs := rfl
@[simp] theorem State.fail_responses (c : ErrCode) (i : Octet) : (s.fail c i).responses = s.responses := rfl
@[simp] theorem State.fail_turns (c : ErrCode) (i : Octet) : (s.fail c i).turns = s.turns := rfl
@[simp] theorem State.fail_draws (c : ErrCode) (i : Octet) : (s.fail c i).draws = s.draws := rfl

/-! `insufficient` -/

@[simp] theorem State.insufficient_cfg : (s.insufficient).cfg = s.cfg := rfl
@[simp] theorem State.insufficient_irqEn : (s.insufficient).irqEn = s.irqEn := rfl
@[simp] theorem State.insufficient_status : (s.insufficient).status = s.status.setInsufficient := rfl
@[simp] theorem State.insufficient_regs : (s.insufficient).regs = s.regs := rfl
@[simp] theorem State.insufficient_res : (s.insufficient).res = s.res := rfl
@[simp] theorem State.insufficient_stateLo : (s.insufficient).stateLo = s.stateLo := rfl
@[simp] theorem State.insufficient_stateHi : (s.insufficient).stateHi = s.stateHi := rfl
@[simp] theorem State.insufficient_elapsed : (s.insufficient).elapsed = s.elapsed := rfl
@[simp] theorem State.insufficient_bitmem : (s.insufficient).bitmem = s.bitmem := rfl
@[simp] theorem State.insufficient_polymem : (s.insufficient).polymem = s.polymem := rfl
@[simp] theorem State.insufficient_op : (s.insufficient).op = s.op := rfl
@[simp] theorem State.insufficient_flight : (s.insufficient).flight = false := rfl
@[simp] theorem State.insufficient_inputs : (s.insufficient).inputs = s.inputs := rfl
@[simp] theorem State.insufficient_responses : (s.insufficient).responses = s.responses := rfl
@[simp] theorem State.insufficient_turns : (s.insufficient).turns = s.turns := rfl
@[simp] theorem State.insufficient_draws : (s.insufficient).draws = s.draws := rfl

/-! `accept` -/

@[simp] theorem State.accept_cfg : (s.accept).cfg = s.cfg := rfl
@[simp] theorem State.accept_irqEn : (s.accept).irqEn = s.irqEn := rfl
@[simp] theorem State.accept_status : (s.accept).status = s.status := rfl
@[simp] theorem State.accept_regs : (s.accept).regs = s.regs := rfl
@[simp] theorem State.accept_res : (s.accept).res = s.res := rfl
@[simp] theorem State.accept_stateLo : (s.accept).stateLo = s.stateLo := rfl
@[simp] theorem State.accept_stateHi : (s.accept).stateHi = s.stateHi := rfl
@[simp] theorem State.accept_elapsed : (s.accept).elapsed = s.elapsed := rfl
@[simp] theorem State.accept_bitmem : (s.accept).bitmem = s.bitmem := rfl
@[simp] theorem State.accept_polymem : (s.accept).polymem = s.polymem := rfl
@[simp] theorem State.accept_op : (s.accept).op = s.op := rfl
@[simp] theorem State.accept_flight : (s.accept).flight = true := rfl
@[simp] theorem State.accept_inputs : (s.accept).inputs = s.inputs := rfl
@[simp] theorem State.accept_responses : (s.accept).responses = s.responses := rfl
@[simp] theorem State.accept_turns : (s.accept).turns = s.turns := rfl
@[simp] theorem State.accept_draws : (s.accept).draws = s.draws := rfl

/-! `endAtIssue` -/

@[simp] theorem State.endAtIssue_cfg : (s.endAtIssue).cfg = s.cfg := rfl
@[simp] theorem State.endAtIssue_irqEn : (s.endAtIssue).irqEn = s.irqEn := rfl
@[simp] theorem State.endAtIssue_status : (s.endAtIssue).status = s.status.setDone := rfl
@[simp] theorem State.endAtIssue_regs : (s.endAtIssue).regs = s.regs := rfl
@[simp] theorem State.endAtIssue_res : (s.endAtIssue).res = s.res := rfl
@[simp] theorem State.endAtIssue_stateLo : (s.endAtIssue).stateLo = s.stateLo := rfl
@[simp] theorem State.endAtIssue_stateHi : (s.endAtIssue).stateHi = s.stateHi := rfl
@[simp] theorem State.endAtIssue_elapsed : (s.endAtIssue).elapsed = s.elapsed := rfl
@[simp] theorem State.endAtIssue_bitmem : (s.endAtIssue).bitmem = s.bitmem := rfl
@[simp] theorem State.endAtIssue_polymem : (s.endAtIssue).polymem = s.polymem := rfl
@[simp] theorem State.endAtIssue_op : (s.endAtIssue).op = s.op := rfl
@[simp] theorem State.endAtIssue_flight : (s.endAtIssue).flight = false := rfl
@[simp] theorem State.endAtIssue_inputs : (s.endAtIssue).inputs = s.inputs := rfl
@[simp] theorem State.endAtIssue_responses : (s.endAtIssue).responses = s.responses := rfl
@[simp] theorem State.endAtIssue_turns : (s.endAtIssue).turns = s.turns := rfl
@[simp] theorem State.endAtIssue_draws : (s.endAtIssue).draws = s.draws := rfl

/-! `complete` -/

@[simp] theorem State.complete_cfg (e : Effects) : (s.complete e).cfg = s.cfg := rfl
@[simp] theorem State.complete_irqEn (e : Effects) : (s.complete e).irqEn = s.irqEn := rfl
@[simp] theorem State.complete_status (e : Effects) : (s.complete e).status = s.status.setDone := rfl
@[simp] theorem State.complete_regs (e : Effects) : (s.complete e).regs = s.regs := rfl
@[simp] theorem State.complete_res (e : Effects) : (s.complete e).res = e.res := rfl
@[simp] theorem State.complete_stateLo (e : Effects) : (s.complete e).stateLo = BitVec.ofNat 32 (e.state % 2 ^ 32) := rfl
@[simp] theorem State.complete_stateHi (e : Effects) : (s.complete e).stateHi = BitVec.ofNat 32 (e.state / 2 ^ 32 % 2 ^ 32) := rfl
@[simp] theorem State.complete_elapsed (e : Effects) : (s.complete e).elapsed = e.elapsed := rfl
@[simp] theorem State.complete_bitmem (e : Effects) : (s.complete e).bitmem = e.bitmem := rfl
@[simp] theorem State.complete_polymem (e : Effects) : (s.complete e).polymem = e.polymem := rfl
@[simp] theorem State.complete_op (e : Effects) : (s.complete e).op = s.op := rfl
@[simp] theorem State.complete_flight (e : Effects) : (s.complete e).flight = false := rfl
@[simp] theorem State.complete_inputs (e : Effects) : (s.complete e).inputs = s.inputs := rfl
@[simp] theorem State.complete_responses (e : Effects) : (s.complete e).responses = s.responses := rfl
@[simp] theorem State.complete_turns (e : Effects) : (s.complete e).turns = s.turns := rfl
@[simp] theorem State.complete_draws (e : Effects) : (s.complete e).draws = s.draws + 1 := rfl

/-! `respond` -/

@[simp] theorem State.respond_cfg (r : Response) : (s.respond r).cfg = s.cfg := rfl
@[simp] theorem State.respond_irqEn (r : Response) : (s.respond r).irqEn = s.irqEn := rfl
@[simp] theorem State.respond_status (r : Response) : (s.respond r).status = s.status := rfl
@[simp] theorem State.respond_regs (r : Response) : (s.respond r).regs = s.regs := rfl
@[simp] theorem State.respond_res (r : Response) : (s.respond r).res = s.res := rfl
@[simp] theorem State.respond_stateLo (r : Response) : (s.respond r).stateLo = s.stateLo := rfl
@[simp] theorem State.respond_stateHi (r : Response) : (s.respond r).stateHi = s.stateHi := rfl
@[simp] theorem State.respond_elapsed (r : Response) : (s.respond r).elapsed = s.elapsed := rfl
@[simp] theorem State.respond_bitmem (r : Response) : (s.respond r).bitmem = s.bitmem := rfl
@[simp] theorem State.respond_polymem (r : Response) : (s.respond r).polymem = s.polymem := rfl
@[simp] theorem State.respond_op (r : Response) : (s.respond r).op = s.op := rfl
@[simp] theorem State.respond_flight (r : Response) : (s.respond r).flight = s.flight := rfl
@[simp] theorem State.respond_inputs (r : Response) : (s.respond r).inputs = s.inputs := rfl
@[simp] theorem State.respond_responses (r : Response) : (s.respond r).responses = r :: s.responses := rfl
@[simp] theorem State.respond_turns (r : Response) : (s.respond r).turns = s.turns := rfl
@[simp] theorem State.respond_draws (r : Response) : (s.respond r).draws = s.draws := rfl

/-! `refuse` -/

@[simp] theorem State.refuse_cfg : (s.refuse).cfg = s.cfg := rfl
@[simp] theorem State.refuse_irqEn : (s.refuse).irqEn = s.irqEn := rfl
@[simp] theorem State.refuse_status : (s.refuse).status = s.status.setOverrun := rfl
@[simp] theorem State.refuse_regs : (s.refuse).regs = s.regs := rfl
@[simp] theorem State.refuse_res : (s.refuse).res = s.res := rfl
@[simp] theorem State.refuse_stateLo : (s.refuse).stateLo = s.stateLo := rfl
@[simp] theorem State.refuse_stateHi : (s.refuse).stateHi = s.stateHi := rfl
@[simp] theorem State.refuse_elapsed : (s.refuse).elapsed = s.elapsed := rfl
@[simp] theorem State.refuse_bitmem : (s.refuse).bitmem = s.bitmem := rfl
@[simp] theorem State.refuse_polymem : (s.refuse).polymem = s.polymem := rfl
@[simp] theorem State.refuse_op : (s.refuse).op = s.op := rfl
@[simp] theorem State.refuse_flight : (s.refuse).flight = s.flight := rfl
@[simp] theorem State.refuse_inputs : (s.refuse).inputs = s.inputs := rfl
@[simp] theorem State.refuse_responses : (s.refuse).responses = s.responses := rfl
@[simp] theorem State.refuse_turns : (s.refuse).turns = s.turns := rfl
@[simp] theorem State.refuse_draws : (s.refuse).draws = s.draws := rfl

/-! `writeStatus` -/

@[simp] theorem State.writeStatus_cfg (v : Word) : (s.writeStatus v).cfg = s.cfg := rfl
@[simp] theorem State.writeStatus_irqEn (v : Word) : (s.writeStatus v).irqEn = s.irqEn := rfl
@[simp] theorem State.writeStatus_status (v : Word) : (s.writeStatus v).status = s.status.acknowledge v := rfl
@[simp] theorem State.writeStatus_regs (v : Word) : (s.writeStatus v).regs = s.regs := rfl
@[simp] theorem State.writeStatus_res (v : Word) : (s.writeStatus v).res = s.res := rfl
@[simp] theorem State.writeStatus_stateLo (v : Word) : (s.writeStatus v).stateLo = s.stateLo := rfl
@[simp] theorem State.writeStatus_stateHi (v : Word) : (s.writeStatus v).stateHi = s.stateHi := rfl
@[simp] theorem State.writeStatus_elapsed (v : Word) : (s.writeStatus v).elapsed = s.elapsed := rfl
@[simp] theorem State.writeStatus_bitmem (v : Word) : (s.writeStatus v).bitmem = s.bitmem := rfl
@[simp] theorem State.writeStatus_polymem (v : Word) : (s.writeStatus v).polymem = s.polymem := rfl
@[simp] theorem State.writeStatus_op (v : Word) : (s.writeStatus v).op = s.op := rfl
@[simp] theorem State.writeStatus_flight (v : Word) : (s.writeStatus v).flight = s.flight := rfl
@[simp] theorem State.writeStatus_inputs (v : Word) : (s.writeStatus v).inputs = s.inputs := rfl
@[simp] theorem State.writeStatus_responses (v : Word) : (s.writeStatus v).responses = s.responses := rfl
@[simp] theorem State.writeStatus_turns (v : Word) : (s.writeStatus v).turns = s.turns := rfl
@[simp] theorem State.writeStatus_draws (v : Word) : (s.writeStatus v).draws = s.draws := rfl

/-! `writeOperand` -/

@[simp] theorem State.writeOperand_cfg (r : OperandReg) (v : Word) : (s.writeOperand r v).cfg = s.cfg := rfl
@[simp] theorem State.writeOperand_irqEn (r : OperandReg) (v : Word) : (s.writeOperand r v).irqEn = s.irqEn := rfl
@[simp] theorem State.writeOperand_status (r : OperandReg) (v : Word) : (s.writeOperand r v).status = s.status := rfl
@[simp] theorem State.writeOperand_regs (r : OperandReg) (v : Word) : (s.writeOperand r v).regs = s.regs.set v r := rfl
@[simp] theorem State.writeOperand_res (r : OperandReg) (v : Word) : (s.writeOperand r v).res = s.res := rfl
@[simp] theorem State.writeOperand_stateLo (r : OperandReg) (v : Word) : (s.writeOperand r v).stateLo = s.stateLo := rfl
@[simp] theorem State.writeOperand_stateHi (r : OperandReg) (v : Word) : (s.writeOperand r v).stateHi = s.stateHi := rfl
@[simp] theorem State.writeOperand_elapsed (r : OperandReg) (v : Word) : (s.writeOperand r v).elapsed = s.elapsed := rfl
@[simp] theorem State.writeOperand_bitmem (r : OperandReg) (v : Word) : (s.writeOperand r v).bitmem = s.bitmem := rfl
@[simp] theorem State.writeOperand_polymem (r : OperandReg) (v : Word) : (s.writeOperand r v).polymem = s.polymem := rfl
@[simp] theorem State.writeOperand_op (r : OperandReg) (v : Word) : (s.writeOperand r v).op = s.op := rfl
@[simp] theorem State.writeOperand_flight (r : OperandReg) (v : Word) : (s.writeOperand r v).flight = s.flight := rfl
@[simp] theorem State.writeOperand_inputs (r : OperandReg) (v : Word) : (s.writeOperand r v).inputs = s.inputs := rfl
@[simp] theorem State.writeOperand_responses (r : OperandReg) (v : Word) : (s.writeOperand r v).responses = s.responses := rfl
@[simp] theorem State.writeOperand_turns (r : OperandReg) (v : Word) : (s.writeOperand r v).turns = s.turns := rfl
@[simp] theorem State.writeOperand_draws (r : OperandReg) (v : Word) : (s.writeOperand r v).draws = s.draws := rfl

/-! `clearRegisters` -/

@[simp] theorem State.clearRegisters_cfg : (s.clearRegisters).cfg = s.cfg := rfl
@[simp] theorem State.clearRegisters_irqEn : (s.clearRegisters).irqEn = false := rfl
@[simp] theorem State.clearRegisters_status : (s.clearRegisters).status = Status.reset := rfl
@[simp] theorem State.clearRegisters_regs : (s.clearRegisters).regs = OperandRegs.reset := rfl
@[simp] theorem State.clearRegisters_res : (s.clearRegisters).res = {} := rfl
@[simp] theorem State.clearRegisters_stateLo : (s.clearRegisters).stateLo = 0 := rfl
@[simp] theorem State.clearRegisters_stateHi : (s.clearRegisters).stateHi = 0 := rfl
@[simp] theorem State.clearRegisters_elapsed : (s.clearRegisters).elapsed = 0 := rfl
@[simp] theorem State.clearRegisters_bitmem : (s.clearRegisters).bitmem = s.bitmem := rfl
@[simp] theorem State.clearRegisters_polymem : (s.clearRegisters).polymem = s.polymem := rfl
@[simp] theorem State.clearRegisters_op : (s.clearRegisters).op = OpSet.empty := rfl
@[simp] theorem State.clearRegisters_flight : (s.clearRegisters).flight = false := rfl
@[simp] theorem State.clearRegisters_inputs : (s.clearRegisters).inputs = s.inputs := rfl
@[simp] theorem State.clearRegisters_responses : (s.clearRegisters).responses = s.responses := rfl
@[simp] theorem State.clearRegisters_turns : (s.clearRegisters).turns = s.turns := rfl
@[simp] theorem State.clearRegisters_draws : (s.clearRegisters).draws = s.draws := rfl

/-! `hardReset` -/

@[simp] theorem State.hardReset_cfg : (s.hardReset).cfg = s.cfg := rfl
@[simp] theorem State.hardReset_irqEn : (s.hardReset).irqEn = false := rfl
@[simp] theorem State.hardReset_status : (s.hardReset).status = Status.reset := rfl
@[simp] theorem State.hardReset_regs : (s.hardReset).regs = OperandRegs.reset := rfl
@[simp] theorem State.hardReset_res : (s.hardReset).res = {} := rfl
@[simp] theorem State.hardReset_stateLo : (s.hardReset).stateLo = 0 := rfl
@[simp] theorem State.hardReset_stateHi : (s.hardReset).stateHi = 0 := rfl
@[simp] theorem State.hardReset_elapsed : (s.hardReset).elapsed = 0 := rfl
@[simp] theorem State.hardReset_bitmem : (s.hardReset).bitmem = [] := rfl
@[simp] theorem State.hardReset_polymem : (s.hardReset).polymem = [] := rfl
@[simp] theorem State.hardReset_op : (s.hardReset).op = OpSet.empty := rfl
@[simp] theorem State.hardReset_flight : (s.hardReset).flight = false := rfl
@[simp] theorem State.hardReset_inputs : (s.hardReset).inputs = s.inputs := rfl
@[simp] theorem State.hardReset_responses : (s.hardReset).responses = s.responses := rfl
@[simp] theorem State.hardReset_turns : (s.hardReset).turns = s.turns := rfl
@[simp] theorem State.hardReset_draws : (s.hardReset).draws = s.draws := rfl

/-! `abort` and `softReset` change only the memories beside the registers. -/

@[simp] theorem State.abort_cfg : s.abort.cfg = s.cfg := by
  unfold State.abort; split <;> rfl
@[simp] theorem State.abort_irqEn : s.abort.irqEn = s.irqEn := by
  unfold State.abort; split <;> rfl
@[simp] theorem State.abort_status : s.abort.status = s.status := by
  unfold State.abort; split <;> rfl
@[simp] theorem State.abort_regs : s.abort.regs = s.regs := by
  unfold State.abort; split <;> rfl
@[simp] theorem State.abort_res : s.abort.res = s.res := by
  unfold State.abort; split <;> rfl
@[simp] theorem State.abort_stateLo : s.abort.stateLo = s.stateLo := by
  unfold State.abort; split <;> rfl
@[simp] theorem State.abort_stateHi : s.abort.stateHi = s.stateHi := by
  unfold State.abort; split <;> rfl
@[simp] theorem State.abort_elapsed : s.abort.elapsed = s.elapsed := by
  unfold State.abort; split <;> rfl
@[simp] theorem State.abort_op : s.abort.op = s.op := by
  unfold State.abort; split <;> rfl
@[simp] theorem State.abort_flight : s.abort.flight = s.flight := by
  unfold State.abort; split <;> rfl
@[simp] theorem State.abort_inputs : s.abort.inputs = s.inputs := by
  unfold State.abort; split <;> rfl
@[simp] theorem State.abort_responses : s.abort.responses = s.responses := by
  unfold State.abort; split <;> rfl
@[simp] theorem State.abort_turns : s.abort.turns = s.turns := by
  unfold State.abort; split <;> rfl
@[simp] theorem State.abort_draws : s.abort.draws = s.draws := by
  unfold State.abort; split <;> rfl

@[simp] theorem State.softReset_cfg : s.softReset.cfg = s.cfg := by
  simp [State.softReset]
@[simp] theorem State.softReset_irqEn : s.softReset.irqEn = false := rfl
@[simp] theorem State.softReset_status : s.softReset.status = Status.reset := rfl
@[simp] theorem State.softReset_regs : s.softReset.regs = OperandRegs.reset := rfl
@[simp] theorem State.softReset_res : s.softReset.res = {} := rfl
@[simp] theorem State.softReset_stateLo : s.softReset.stateLo = 0 := rfl
@[simp] theorem State.softReset_stateHi : s.softReset.stateHi = 0 := rfl
@[simp] theorem State.softReset_elapsed : s.softReset.elapsed = 0 := rfl
@[simp] theorem State.softReset_bitmem : s.softReset.bitmem = s.abort.bitmem := rfl
@[simp] theorem State.softReset_polymem : s.softReset.polymem = s.abort.polymem := rfl
@[simp] theorem State.softReset_op : s.softReset.op = OpSet.empty := rfl
@[simp] theorem State.softReset_flight : s.softReset.flight = false := rfl
@[simp] theorem State.softReset_inputs : s.softReset.inputs = s.inputs := by
  simp [State.softReset]
@[simp] theorem State.softReset_responses : s.softReset.responses = s.responses := by
  simp [State.softReset]
@[simp] theorem State.softReset_turns : s.softReset.turns = s.turns := by
  simp [State.softReset]
@[simp] theorem State.softReset_draws : s.softReset.draws = s.draws := by
  simp [State.softReset]

/-! `takeTurn` changes only `turns`. -/

@[simp] theorem State.takeTurn_cfg : s.takeTurn.cfg = s.cfg := by
  unfold State.takeTurn; split <;> rfl
@[simp] theorem State.takeTurn_irqEn : s.takeTurn.irqEn = s.irqEn := by
  unfold State.takeTurn; split <;> rfl
@[simp] theorem State.takeTurn_status : s.takeTurn.status = s.status := by
  unfold State.takeTurn; split <;> rfl
@[simp] theorem State.takeTurn_regs : s.takeTurn.regs = s.regs := by
  unfold State.takeTurn; split <;> rfl
@[simp] theorem State.takeTurn_res : s.takeTurn.res = s.res := by
  unfold State.takeTurn; split <;> rfl
@[simp] theorem State.takeTurn_stateLo : s.takeTurn.stateLo = s.stateLo := by
  unfold State.takeTurn; split <;> rfl
@[simp] theorem State.takeTurn_stateHi : s.takeTurn.stateHi = s.stateHi := by
  unfold State.takeTurn; split <;> rfl
@[simp] theorem State.takeTurn_elapsed : s.takeTurn.elapsed = s.elapsed := by
  unfold State.takeTurn; split <;> rfl
@[simp] theorem State.takeTurn_bitmem : s.takeTurn.bitmem = s.bitmem := by
  unfold State.takeTurn; split <;> rfl
@[simp] theorem State.takeTurn_polymem : s.takeTurn.polymem = s.polymem := by
  unfold State.takeTurn; split <;> rfl
@[simp] theorem State.takeTurn_op : s.takeTurn.op = s.op := by
  unfold State.takeTurn; split <;> rfl
@[simp] theorem State.takeTurn_flight : s.takeTurn.flight = s.flight := by
  unfold State.takeTurn; split <;> rfl
@[simp] theorem State.takeTurn_inputs : s.takeTurn.inputs = s.inputs := by
  unfold State.takeTurn; split <;> rfl
@[simp] theorem State.takeTurn_responses : s.takeTurn.responses = s.responses := by
  unfold State.takeTurn; split <;> rfl
@[simp] theorem State.takeTurn_draws : s.takeTurn.draws = s.draws := by
  unfold State.takeTurn; split <;> rfl

/-! `setMem` changes only the memory of its space. -/

@[simp] theorem State.setMem_cfg (sp : Space) (m : Memory) : (s.setMem sp m).cfg = s.cfg := by
  cases sp <;> rfl
@[simp] theorem State.setMem_irqEn (sp : Space) (m : Memory) : (s.setMem sp m).irqEn = s.irqEn := by
  cases sp <;> rfl
@[simp] theorem State.setMem_status (sp : Space) (m : Memory) : (s.setMem sp m).status = s.status := by
  cases sp <;> rfl
@[simp] theorem State.setMem_regs (sp : Space) (m : Memory) : (s.setMem sp m).regs = s.regs := by
  cases sp <;> rfl
@[simp] theorem State.setMem_res (sp : Space) (m : Memory) : (s.setMem sp m).res = s.res := by
  cases sp <;> rfl
@[simp] theorem State.setMem_stateLo (sp : Space) (m : Memory) : (s.setMem sp m).stateLo = s.stateLo := by
  cases sp <;> rfl
@[simp] theorem State.setMem_stateHi (sp : Space) (m : Memory) : (s.setMem sp m).stateHi = s.stateHi := by
  cases sp <;> rfl
@[simp] theorem State.setMem_elapsed (sp : Space) (m : Memory) : (s.setMem sp m).elapsed = s.elapsed := by
  cases sp <;> rfl
@[simp] theorem State.setMem_op (sp : Space) (m : Memory) : (s.setMem sp m).op = s.op := by
  cases sp <;> rfl
@[simp] theorem State.setMem_flight (sp : Space) (m : Memory) : (s.setMem sp m).flight = s.flight := by
  cases sp <;> rfl
@[simp] theorem State.setMem_inputs (sp : Space) (m : Memory) : (s.setMem sp m).inputs = s.inputs := by
  cases sp <;> rfl
@[simp] theorem State.setMem_responses (sp : Space) (m : Memory) : (s.setMem sp m).responses = s.responses := by
  cases sp <;> rfl
@[simp] theorem State.setMem_turns (sp : Space) (m : Memory) : (s.setMem sp m).turns = s.turns := by
  cases sp <;> rfl
@[simp] theorem State.setMem_draws (sp : Space) (m : Memory) : (s.setMem sp m).draws = s.draws := by
  cases sp <;> rfl

@[simp] theorem State.mem_setMem_same (sp : Space) (m : Memory) : (s.setMem sp m).mem sp = m := by
  cases sp <;> rfl

/-! The command in flight depends only on the flag and OP. -/

theorem State.inFlight_congr {s t : State} (hf : t.flight = s.flight) (ho : t.op = s.op) : t.inFlight = s.inFlight := by
  simp [State.inFlight, hf, ho]

theorem State.busy_congr {s t : State} (hf : t.flight = s.flight) (ho : t.op = s.op) : t.busy = s.busy := by
  simp [State.busy, State.inFlight_congr hf ho]

theorem State.inFlight_none_of_flight {s : State} (h : s.flight = false) : s.inFlight = none := by
  simp [State.inFlight, h]

theorem State.busy_false_of_flight {s : State} (h : s.flight = false) : s.busy = false := by
  simp [State.busy, State.inFlight_none_of_flight h]

theorem State.busy_of_inFlight {s : State} {i : Instr} (h : s.inFlight = some i) : s.busy = true := by
  simp [State.busy, h]

@[simp] theorem State.respond_busy (r : Response) : (s.respond r).busy = s.busy := rfl
@[simp] theorem State.respond_inFlight (r : Response) : (s.respond r).inFlight = s.inFlight := rfl
@[simp] theorem State.refuse_busy : s.refuse.busy = s.busy := rfl
@[simp] theorem State.refuse_inFlight : s.refuse.inFlight = s.inFlight := rfl
@[simp] theorem State.writeStatus_busy (v : Word) : (s.writeStatus v).busy = s.busy := rfl
@[simp] theorem State.writeStatus_inFlight (v : Word) : (s.writeStatus v).inFlight = s.inFlight := rfl
@[simp] theorem State.writeOperand_busy (r : OperandReg) (v : Word) : (s.writeOperand r v).busy = s.busy := rfl
@[simp] theorem State.writeOperand_inFlight (r : OperandReg) (v : Word) :
    (s.writeOperand r v).inFlight = s.inFlight := rfl
@[simp] theorem State.complete_busy (e : Effects) : (s.complete e).busy = false := rfl
@[simp] theorem State.fail_busy (c : ErrCode) (i : Octet) : (s.fail c i).busy = false := rfl
@[simp] theorem State.insufficient_busy : s.insufficient.busy = false := rfl
@[simp] theorem State.endAtIssue_busy : s.endAtIssue.busy = false := rfl
@[simp] theorem State.softReset_busy : s.softReset.busy = false := rfl
@[simp] theorem State.hardReset_busy : s.hardReset.busy = false := rfl
@[simp] theorem State.takeTurn_inFlight : s.takeTurn.inFlight = s.inFlight := State.inFlight_congr (by simp) (by simp)
@[simp] theorem State.takeTurn_busy : s.takeTurn.busy = s.busy := State.busy_congr (by simp) (by simp)

/-! Operand registers: a write is read back and leaves the others alone (10_state R24 to R30). -/

@[simp] theorem OperandRegs.get_set_same (r : OperandRegs) (v : Word) (x : OperandReg) : (r.set v x).get x = v := by
  cases x <;> rfl

theorem OperandRegs.get_set_other (r : OperandRegs) (v : Word) {x y : OperandReg} (h : y ≠ x) :
    (r.set v x).get y = r.get y := by
  cases x <;> cases y <;> first | rfl | exact absurd rfl h

/-! STATUS: what each update does to each flag. -/

@[simp] theorem Status.issueClear_ovr (f : Status) : f.issueClear.ovr = f.ovr := rfl
@[simp] theorem Status.setError_ovr (c : ErrCode) (i : Octet) (f : Status) : (f.setError c i).ovr = f.ovr := rfl
@[simp] theorem Status.setInsufficient_ovr (f : Status) : f.setInsufficient.ovr = f.ovr := rfl
@[simp] theorem Status.setDone_ovr (f : Status) : f.setDone.ovr = f.ovr := rfl
@[simp] theorem Status.setOverrun_ovr (f : Status) : f.setOverrun.ovr = true := rfl
@[simp] theorem Status.setError_done (c : ErrCode) (i : Octet) (f : Status) : (f.setError c i).done = true := rfl
@[simp] theorem Status.setInsufficient_done (f : Status) : f.setInsufficient.done = true := rfl
@[simp] theorem Status.setDone_done (f : Status) : f.setDone.done = true := rfl
@[simp] theorem Status.setOverrun_done (f : Status) : f.setOverrun.done = f.done := rfl
@[simp] theorem Status.setOverrun_err (f : Status) : f.setOverrun.err = f.err := rfl
@[simp] theorem Status.setOverrun_insuff (f : Status) : f.setOverrun.insuff = f.insuff := rfl
@[simp] theorem Status.setOverrun_errCode (f : Status) : f.setOverrun.errCode = f.errCode := rfl
@[simp] theorem Status.setOverrun_errInfo (f : Status) : f.setOverrun.errInfo = f.errInfo := rfl

end Sys2Proof.Machine
end

