-- ==== Sys2Proof/Laws/Memory.lean ====
section
/-! SUPPORT. The laws of the bit memories: a write is read back and leaves every other bit alone, every operation keeps
the canonical form and the capacity, and a region read gives exactly the bits of the region or its lowest unmarked
address. -/

namespace Sys2Proof.Machine

/-! ## Cells -/

theorem Memory.mem_cells {a : Nat} {bs : List Bool} {c : Nat × Bool} (h : c ∈ Memory.cells a bs) :
    a ≤ c.1 ∧ c.1 < a + bs.length := by
  induction bs generalizing a with
  | nil => simp [Memory.cells] at h
  | cons b bs ih =>
    simp only [Memory.cells, List.mem_cons] at h
    rcases h with rfl | h
    · simp
    · have := ih h
      simp only [List.length_cons]
      omega

theorem Memory.cells_wf (a : Nat) (bs : List Bool) : (Memory.cells a bs).wf := by
  induction bs generalizing a with
  | nil => exact List.Pairwise.nil
  | cons b bs ih => exact List.Pairwise.cons (fun c hc => by have := Memory.mem_cells hc; simp only; omega) (ih (a + 1))

theorem Memory.lookup_cells (a : Nat) (bs : List Bool) (x : Nat) :
    (Memory.cells a bs).lookup x = if a ≤ x ∧ x < a + bs.length then some (bs.getD (x - a) false) else none := by
  induction bs generalizing a with
  | nil => simp [Memory.cells]
  | cons b bs ih =>
    simp only [Memory.cells, List.lookup_cons, ih, List.length_cons]
    by_cases hx : x = a
    · subst hx; simp
    · have hne : (x == a) = false := by simpa using hx
      simp only [hne]
      by_cases hlt : a + 1 ≤ x ∧ x < a + 1 + bs.length
      · rw [if_pos hlt, if_pos (by omega)]
        congr 1
        obtain ⟨d, rfl⟩ : ∃ d, x = a + 1 + d := ⟨x - (a + 1), by omega⟩
        have e1 : a + 1 + d - (a + 1) = d := by omega
        have e2 : a + 1 + d - a = d + 1 := by omega
        rw [e1, e2]
        simp
      · rw [if_neg hlt, if_neg (by omega)]

/-! ## Reading one bit through a filter -/

theorem Memory.lookup_filter (m : Memory) (p : Nat → Bool) (x : Nat) :
    List.lookup x (m.filter (fun c => p c.1)) = if p x then List.lookup x m else none := by
  induction m with
  | nil => simp
  | cons c m ih =>
    obtain ⟨k, b⟩ := c
    by_cases hp : p k
    · rw [List.filter_cons_of_pos (by simpa using hp)]
      simp only [List.lookup_cons, ih]
      by_cases hx : x = k
      · subst hx; simp [hp]
      · have hne : (x == k) = false := by simpa using hx
        simp [hne]
    · rw [List.filter_cons_of_neg (by simpa using hp), ih]
      by_cases hx : x = k
      · subst hx; simp [hp]
      · have hne : (x == k) = false := by simpa using hx
        simp [List.lookup_cons, hne]

theorem Memory.lookup_append (m n : Memory) (x : Nat) :
    List.lookup x (m ++ n) = (List.lookup x m).or (List.lookup x n) := by
  induction m with
  | nil => simp
  | cons c m ih =>
    obtain ⟨k, b⟩ := c
    simp only [List.cons_append, List.lookup_cons, ih]
    split <;> simp

/-! ## Writing a region -/

/-- What BitWriteSeq does to every bit (00_scope R12): the region holds the bits written, marked; every other bit is
as before. -/
theorem Memory.read_writeSeq (m : Memory) (a : Nat) (bs : List Bool) (x : Nat) :
    (m.writeSeq a bs).read x = if a ≤ x ∧ x < a + bs.length then some (bs.getD (x - a) false) else m.read x := by
  simp only [Memory.read, Memory.writeSeq, Memory.lookup_append, Memory.lookup_cells]
  have h1 := Memory.lookup_filter m (fun k => decide (k < a)) x
  have h2 := Memory.lookup_filter m (fun k => decide (a + bs.length ≤ k)) x
  rw [h1, h2]
  by_cases hlt : x < a
  · have hn : ¬(a ≤ x ∧ x < a + bs.length) := by omega
    have hg : ¬(a + bs.length ≤ x) := by omega
    simp [hlt, hn, hg]
  · by_cases hin : a ≤ x ∧ x < a + bs.length
    · simp [hlt, hin]
    · have hg : a + bs.length ≤ x := by omega
      rw [if_neg hin, if_neg hin]
      simp [hlt, hg]

theorem Memory.read_writeSeq_in (m : Memory) (a : Nat) (bs : List Bool) {i : Nat} (h : i < bs.length) :
    (m.writeSeq a bs).read (a + i) = some (bs.getD i false) := by
  rw [Memory.read_writeSeq, if_pos (by omega)]
  simp

theorem Memory.read_writeSeq_out (m : Memory) (a : Nat) (bs : List Bool) {x : Nat}
    (h : x < a ∨ a + bs.length ≤ x) : (m.writeSeq a bs).read x = m.read x := by
  rw [Memory.read_writeSeq, if_neg (by omega)]

/-- A region write holds its bits and changes nothing outside. -/
theorem Memory.writeSeq_holds (m : Memory) (a : Nat) (bs : List Bool) : holdsBits (m.writeSeq a bs) a bs :=
  fun _ hi => Memory.read_writeSeq_in m a bs hi

theorem Memory.writeSeq_sameOutside (m : Memory) (a : Nat) (bs : List Bool) :
    sameOutside m (m.writeSeq a bs) a bs.length :=
  fun _ hx => Memory.read_writeSeq_out m a bs hx

/-- A region write keeps the canonical form. -/
theorem Memory.writeSeq_wf {m : Memory} (h : m.wf) (a : Nat) (bs : List Bool) : (m.writeSeq a bs).wf := by
  have hf (p : Nat × Bool → Bool) : (m.filter p).Pairwise (fun x y => x.1 < y.1) := h.filter p
  refine List.pairwise_append.2 ⟨hf _, List.pairwise_append.2 ⟨Memory.cells_wf a bs, hf _, ?_⟩, ?_⟩
  · intro c hc d hd
    have h1 := Memory.mem_cells hc
    have h2 := (List.mem_filter.1 hd).2
    simp only [decide_eq_true_eq] at h2
    omega
  · intro c hc d hd
    have h1 := (List.mem_filter.1 hc).2
    simp only [decide_eq_true_eq] at h1
    rcases List.mem_append.1 hd with hd | hd
    · have h2 := Memory.mem_cells hd
      omega
    · have h2 := (List.mem_filter.1 hd).2
      simp only [decide_eq_true_eq] at h2
      omega

/-- A region write below a capacity keeps the memory below it. -/
theorem Memory.writeSeq_bound {m : Memory} {cap : Nat} (h : ∀ c ∈ m, c.1 < cap) {a : Nat} {bs : List Bool}
    (hb : a + bs.length ≤ cap) : ∀ c ∈ m.writeSeq a bs, c.1 < cap := by
  intro c hc
  rcases List.mem_append.1 hc with hc | hc
  · exact h c (List.mem_filter.1 hc).1
  · rcases List.mem_append.1 hc with hc | hc
    · have := Memory.mem_cells hc
      omega
    · exact h c (List.mem_filter.1 hc).1

/-! ## Clearing marks -/

theorem Memory.read_unmark (m : Memory) (a n x : Nat) :
    (m.unmark a n).read x = if a ≤ x ∧ x < a + n then none else m.read x := by
  have h := Memory.lookup_filter m (fun k => !(decide (a ≤ k) && decide (k < a + n))) x
  simp only [Memory.read, Memory.unmark, h]
  by_cases hin : a ≤ x ∧ x < a + n
  · simp [hin]
  · rw [if_neg hin, if_pos]
    simp only [Bool.not_eq_true', Bool.and_eq_false_iff, decide_eq_false_iff_not]
    omega

theorem Memory.unmark_wf {m : Memory} (h : m.wf) (a n : Nat) : (m.unmark a n).wf := List.Pairwise.filter _ h

theorem Memory.unmark_bound {m : Memory} {cap : Nat} (h : ∀ c ∈ m, c.1 < cap) (a n : Nat) :
    ∀ c ∈ m.unmark a n, c.1 < cap := fun c hc => h c (List.mem_filter.1 hc).1

/-! ## Reading a region -/

theorem Memory.read_cons (c : Nat × Bool) (m : Memory) (x : Nat) :
    Memory.read (c :: m) x = if x = c.1 then some c.2 else Memory.read m x := by
  obtain ⟨k, b⟩ := c
  by_cases hx : x = k
  · subst hx; simp [Memory.read]
  · have hne : (x == k) = false := by simpa using hx
    simp [Memory.read, List.lookup_cons, hne, hx]

theorem Memory.read_none_of_lt {m : Memory} {x : Nat} (h : ∀ c ∈ m, x < c.1) : m.read x = none := by
  induction m with
  | nil => rfl
  | cons c m ih =>
    have h0 := h c (List.mem_cons_self ..)
    rw [Memory.read_cons, if_neg (by omega)]
    exact ih fun d hd => h d (List.mem_cons_of_mem _ hd)

/-- Everything BitReadSeq can answer (00_scope R12, 10_state R54): the `n` bits of the region, or the lowest address of
the region without a written mark. -/
theorem Memory.readSeq_spec {m : Memory} (hm : m.wf) (a n : Nat) :
    match m.readSeq a n with
    | .ok bs => bs.length = n ∧ holdsBits m a bs
    | .error e => (a ≤ e ∧ e < a + n) ∧ m.read e = none ∧ ∀ x, a ≤ x → x < e → m.read x ≠ none := by
  induction m generalizing a n with
  | nil =>
    cases n with
    | zero => simp [Memory.readSeq, holdsBits]
    | succ n => simp [Memory.readSeq, Memory.read]
  | cons c m ih =>
    have hm' : Memory.wf m := (List.pairwise_cons.1 hm).2
    have hlt : ∀ d ∈ m, c.1 < d.1 := (List.pairwise_cons.1 hm).1
    cases n with
    | zero => simp [Memory.readSeq, holdsBits]
    | succ n =>
      rw [Memory.readSeq]
      by_cases h1 : c.1 < a
      · rw [if_pos h1]
        have := ih hm' a (n + 1)
        have hr : ∀ x, a ≤ x → Memory.read (c :: m) x = Memory.read m x := fun x hx => by
          rw [Memory.read_cons, if_neg (by omega)]
        cases hseq : Memory.readSeq m a (n + 1) with
        | ok bs =>
          rw [hseq] at this
          exact ⟨this.1, fun i hi => by rw [hr _ (by omega)]; exact this.2 i hi⟩
        | error e =>
          rw [hseq] at this
          refine ⟨this.1, by rw [hr _ this.1.1]; exact this.2.1, fun x hx hxe => ?_⟩
          rw [hr _ hx]; exact this.2.2 x hx hxe
      · rw [if_neg h1]
        by_cases h2 : c.1 = a
        · rw [if_pos h2]
          have := ih hm' (a + 1) n
          have hr : ∀ x, a < x → Memory.read (c :: m) x = Memory.read m x := fun x hx => by
            rw [Memory.read_cons, if_neg (by omega)]
          have h0 : Memory.read (c :: m) a = some c.2 := by rw [Memory.read_cons, if_pos h2.symm]
          cases hseq : Memory.readSeq m (a + 1) n with
          | ok bs =>
            rw [hseq] at this
            refine ⟨by simp [this.1], fun i hi => ?_⟩
            cases i with
            | zero => simpa using h0
            | succ i =>
              have hi' : i < bs.length := by simpa using hi
              rw [hr _ (by omega)]
              have := this.2 i hi'
              rw [show a + (i + 1) = a + 1 + i by omega, this]
              simp
          | error e =>
            rw [hseq] at this
            refine ⟨by omega, by rw [hr _ (by omega)]; exact this.2.1, fun x hx hxe => ?_⟩
            rcases Nat.eq_or_lt_of_le hx with rfl | hx
            · simp [h0]
            · rw [hr _ hx]; exact this.2.2 x (by omega) hxe
        · rw [if_neg h2]
          refine ⟨⟨Nat.le_refl a, by omega⟩, ?_, fun x hx hxe => by omega⟩
          refine Memory.read_none_of_lt fun d hd => ?_
          rcases List.mem_cons.1 hd with rfl | hd
          · omega
          · have := hlt d hd
            omega

/-- A region all of whose bits are marked is read. -/
theorem Memory.readSeq_ok {m : Memory} (hm : m.wf) {a : Nat} {bs : List Bool} (h : holdsBits m a bs) :
    m.readSeq a bs.length = .ok bs := by
  have hs := Memory.readSeq_spec hm a bs.length
  cases hr : m.readSeq a bs.length with
  | ok cs =>
    rw [hr] at hs
    congr 1
    refine List.ext_getElem hs.1 fun i h1 h2 => ?_
    have e1 := hs.2 i h1
    have e2 := h i h2
    rw [e1] at e2
    simpa [List.getD_eq_getElem?_getD, h1, h2] using e2
  | error e =>
    rw [hr] at hs
    obtain ⟨hb, hn, -⟩ := hs
    have := h (e - a) (by omega)
    rw [show a + (e - a) = e by omega, hn] at this
    cases this

/-! ## A space's memory -/

theorem State.mem_wf {s : State} (h : s.Inv) (sp : Space) : (s.mem sp).wf := by
  cases sp
  · exact h.bitmem_wf
  · exact h.polymem_wf

end Sys2Proof.Machine
end

