-- ==== Sys2Proof/Laws/Issue.lean ====
section
/-! SUPPORT. Everything the issue of a command and the completion of a command can do. -/

namespace Sys2Proof.Machine

/-- Everything the issue of a command can do (60_exceptions R242): it always goes on, with the first failing check's
error, with InsufficientData, or with the command in flight. -/
theorem issue_cases (i : Instr) (checks : Config → OpSet → List Check) (short : OpSet → Bool) (s : State) :
    (∃ c, firstFailure (checks s.cfg (OpSet.latch s.regs (encode i))) = some c ∧
        issue i checks short s = .next ((s.prepare (encode i)).fail c.code c.info)) ∨
    (firstFailure (checks s.cfg (OpSet.latch s.regs (encode i))) = none ∧
        short (OpSet.latch s.regs (encode i)) = true ∧
        issue i checks short s = .next (s.prepare (encode i)).insufficient) ∨
    (firstFailure (checks s.cfg (OpSet.latch s.regs (encode i))) = none ∧
        short (OpSet.latch s.regs (encode i)) = false ∧
        issue i checks short s = .next (s.prepare (encode i)).accept) := by
  simp only [issue, State.prepare_cfg, State.prepare_op]
  cases hf : firstFailure (checks s.cfg (OpSet.latch s.regs (encode i))) with
  | some c => exact .inl ⟨c, rfl, rfl⟩
  | none =>
    by_cases hs : short (OpSet.latch s.regs (encode i)) = true
    · exact .inr (.inl ⟨rfl, hs, if_pos hs⟩)
    · exact .inr (.inr ⟨rfl, Bool.eq_false_of_not_eq_true hs, if_neg hs⟩)

/-- What an issue latches: OP holds the operand registers and the fields of the word (10_state R50). -/
theorem OpSet.latch_latchedFrom (r : OperandRegs) (w : Word) : latchedFrom r w (OpSet.latch r w) := by
  have hp : ∀ a b : Word, (regPair a b).toNat = a.toNat * 2 ^ 32 + b.toNat := fun a b => by
    rw [regPair, BitVec.toNat_append, ← Nat.shiftLeft_add_eq_or_of_lt b.isLt, Nat.shiftLeft_eq]
  refine ⟨⟨hp _ _, hp _ _, hp _ _, hp _ _, hp _ _⟩, ⟨rfl, rfl, rfl, rfl, rfl, rfl⟩, ?_⟩
  simp [OpSet.latch, BitVec.extractLsb'_toNat, Nat.shiftRight_eq_div_pow, wordOpc, wordLsbf, wordSa, wordWidth]

@[simp] theorem firstFailure_nil : firstFailure [] = none := rfl

@[simp] theorem firstFailure_cons (c : Check) (cs : List Check) :
    firstFailure (c :: cs) = if c.fails = true then some c else firstFailure cs := by
  unfold firstFailure
  cases h : c.fails with
  | true => simp [List.find?_cons_of_pos, h]
  | false => simp [List.find?_cons_of_neg, h]

@[simp] theorem seedPresent_fails (sa : Bool) : (seedPresent sa).fails = sa := rfl
@[simp] theorem seedPresent_code (sa : Bool) : (seedPresent sa).code = .cfgSeedAbsent := rfl
@[simp] theorem seedPresent_info (sa : Bool) : (seedPresent sa).info = 0x08 := rfl
@[simp] theorem atMost_fails (v b : Nat) (x : Octet) : (atMost v b x).fails = true ↔ b < v := decide_eq_true_iff
@[simp] theorem atMost_code (v b : Nat) (x : Octet) : (atMost v b x).code = .cfgParam := rfl
@[simp] theorem atMost_info (v b : Nat) (x : Octet) : (atMost v b x).info = x := rfl
@[simp] theorem srcInRange_fails (c : Config) (o : OpSet) (n : Nat) :
    (srcInRange c o n).fails = true ↔ c.bitmemBits < o.src.toNat + n := decide_eq_true_iff
@[simp] theorem srcInRange_code (c : Config) (o : OpSet) (n : Nat) : (srcInRange c o n).code = .cfgRange := rfl
@[simp] theorem srcInRange_info (c : Config) (o : OpSet) (n : Nat) : (srcInRange c o n).info = 0x14 := rfl
@[simp] theorem dstInRange_fails (c : Config) (o : OpSet) (n : Nat) :
    (dstInRange c o n).fails = true ↔ c.bitmemBits < o.dst.toNat + n := decide_eq_true_iff
@[simp] theorem dstInRange_code (c : Config) (o : OpSet) (n : Nat) : (dstInRange c o n).code = .cfgRange := rfl
@[simp] theorem dstInRange_info (c : Config) (o : OpSet) (n : Nat) : (dstInRange c o n).info = 0x13 := rfl

/-- A failing check found is one of the list, and it fails. -/
theorem firstFailure_some {cs : List Check} {c : Check} (h : firstFailure cs = some c) :
    c ∈ cs ∧ c.fails = true :=
  ⟨List.mem_of_find?_eq_some h, List.find?_some h⟩

/-- With no command in flight, every command but NOP is issued with its own checks. -/
theorem exec_idle {s : State} (h : s.busy = false) (i : Instr) (hi : i ≠ .nop) :
    exec i s = issue i (commandChecks i) (commandShort i) s := by
  cases i <;> first
    | exact absurd rfl hi
    | simp [exec, execPack, execGenLcg, execGenPm, execGenPcg32, execGenSm64, execGenLfsr, execRank, execDft, execBm,
        execLincomp, h, commandChecks, commandShort]

/-- NOP ends at issue (40 R110). -/
theorem exec_nop (s : State) : exec .nop s = .next (s.prepare (encode .nop)).endAtIssue := rfl

/-- Reading a region either goes on with its bits or is the model fault UninitRead at an unmarked address, and then the
region is not empty (10_state R54). -/
theorem withBits_cases (sp : Space) (a n : Nat) (s : State) (k : List Bool → Host.Outcome State Fault Refusal) :
    (∃ bs, (s.mem sp).readSeq a n = .ok bs ∧ withBits sp a n s k = k bs) ∨
    (∃ addr, (s.mem sp).readSeq a n = .error addr ∧ withBits sp a n s k = .fault (.uninitRead sp addr) ∧ 0 < n ∧
      ((s.mem sp).wf → (s.mem sp).read addr = none)) := by
  unfold withBits
  cases h : (s.mem sp).readSeq a n with
  | ok bs => exact .inl ⟨bs, rfl, rfl⟩
  | error e =>
    refine .inr ⟨e, rfl, rfl, ?_, fun hm => ?_⟩
    · rcases Nat.eq_zero_or_pos n with rfl | hn
      · simp [Memory.readSeq] at h
      · exact hn
    · have := Memory.readSeq_spec hm a n
      rw [h] at this
      exact this.2.1

theorem pack_length (v w : Nat) (msb : Bool) : (pack v w msb).length = w := by
  unfold pack; split <;> simp

theorem Generator.run_length_le (g : Generator) (x0 n w : Nat) (msb : Bool) : (g.run x0 n w msb).2.length ≤ n := by
  simp only [Generator.run, List.length_take]
  exact Nat.min_le_left ..

/-- Everything a completion can do (10_state R51): it ends the command with effects that write BITMEM only in the
destination region and POLYMEM only for BM, bits 0..LEN; or it is the model fault UninitRead of a command that reads
memory, at an unmarked address. -/
theorem exec_completion {s : State} (h : s.busy = true) (i : Instr) (hi : i ≠ .nop) :
    (∃ e, exec i s = .next (s.complete e) ∧
        (e.bitmem = s.bitmem ∨
          ∃ bs : List Bool, bs.length ≤ writtenBits i s.op ∧ e.bitmem = s.bitmem.writeSeq s.op.dst.toNat bs) ∧
        (e.polymem = s.polymem ∨
          (i = .bm ∧ ∃ bs : List Bool, bs.length = s.op.len.toNat + 1 ∧ e.polymem = s.polymem.writeSeq 0 bs))) ∨
    (∃ sp addr, exec i s = .fault (.uninitRead sp addr) ∧ 0 < readBits i s.op ∧
      ((s.mem sp).wf → (s.mem sp).read addr = none)) := by
  cases i with
  | nop => exact absurd rfl hi
  | pack l w =>
    left
    simp only [exec, execPack, h, if_true]
    exact ⟨_, rfl, .inr ⟨_, by simp [pack_length, writtenBits], rfl⟩, .inl rfl⟩
  | genLcg l a w =>
    left
    simp only [exec, execGenLcg, h, if_true, completeGenerator]
    exact ⟨_, rfl, .inr ⟨_, Generator.run_length_le .., rfl⟩, .inl rfl⟩
  | genPm l a w =>
    left
    simp only [exec, execGenPm, h, if_true, completeGenerator]
    exact ⟨_, rfl, .inr ⟨_, Generator.run_length_le .., rfl⟩, .inl rfl⟩
  | genPcg32 l a w =>
    left
    simp only [exec, execGenPcg32, h, if_true, completeGenerator]
    exact ⟨_, rfl, .inr ⟨_, Generator.run_length_le .., rfl⟩, .inl rfl⟩
  | genSm64 l a w =>
    left
    simp only [exec, execGenSm64, h, if_true, completeGenerator]
    exact ⟨_, rfl, .inr ⟨_, Generator.run_length_le .., rfl⟩, .inl rfl⟩
  | genLfsr l w =>
    simp only [exec, execGenLfsr, h, if_true]
    rcases withBits_cases .bitmem s.op.src.toNat s.op.lfsrL.toNat s _ with ⟨init, -, he⟩ | ⟨a, -, he, hn, hu⟩
    · rw [he]
      rcases withBits_cases .polymem 1 s.op.lfsrL.toNat s _ with ⟨c, -, he⟩ | ⟨a, -, he, hn, hu⟩
      · rw [he]
        refine .inl ⟨_, rfl, .inr ⟨_, ?_, rfl⟩, .inl rfl⟩
        simp only [lfsrOutput, List.length_take, writtenBits]
        exact Nat.min_le_left ..
      · rw [he]; exact .inr ⟨_, _, rfl, hn, hu⟩
    · rw [he]; exact .inr ⟨_, _, rfl, hn, hu⟩
  | rank =>
    simp only [exec, execRank, h, if_true]
    rcases withBits_cases .bitmem s.op.src.toNat (1024 * matrixCount s.op) s _ with ⟨bs, -, he⟩ | ⟨a, -, he, hn, hu⟩
    · rw [he]; exact .inl ⟨_, rfl, .inl rfl, .inl rfl⟩
    · rw [he]; exact .inr ⟨_, _, rfl, hn, hu⟩
  | dft =>
    simp only [exec, execDft, h, if_true]
    rcases withBits_cases .bitmem s.op.src.toNat s.op.len.toNat s _ with ⟨bs, -, he⟩ | ⟨a, -, he, hn, hu⟩
    · rw [he]; exact .inl ⟨_, rfl, .inl rfl, .inl rfl⟩
    · rw [he]; exact .inr ⟨_, _, rfl, hn, hu⟩
  | bm =>
    simp only [exec, execBm, h, if_true]
    rcases withBits_cases .bitmem s.op.src.toNat s.op.len.toNat s _ with ⟨bs, -, he⟩ | ⟨a, -, he, hn, hu⟩
    · rw [he]; exact .inl ⟨_, rfl, .inl rfl, .inr ⟨trivial, _, by simp, rfl⟩⟩
    · rw [he]; exact .inr ⟨_, _, rfl, hn, hu⟩
  | lincomp =>
    simp only [exec, execLincomp, h, if_true]
    rcases withBits_cases .bitmem s.op.src.toNat (blockCount s.op * s.op.blockLength) s _ with ⟨bs, -, he⟩ | ⟨a, -, he, hn, hu⟩
    · rw [he]; exact .inl ⟨_, rfl, .inl rfl, .inl rfl⟩
    · rw [he]; exact .inr ⟨_, _, rfl, hn, hu⟩

end Sys2Proof.Machine
end

