-- ==== Sys2Proof/Laws/Step.lean ====
section
/-! SUPPORT. Everything one step can do: idle, the host's next input, or the completion of the command in flight. -/

namespace Sys2Proof.Machine

/-- A command in flight is never NOP (10_state R35). -/
theorem State.inFlight_ne_nop {s : State} {i : Instr} (h : s.inFlight = some i) : i ≠ .nop := by
  rintro rfl
  unfold State.inFlight OpSet.engineCommand at h
  split at h
  · split at h
    · cases h
    · rename_i j hj _
      cases h
      exact hj rfl
    · cases h
  · cases h

/-- Everything one step can do (10_state R20, 20_memory R75). -/
theorem step_cases (s : State) :
    (s.busy = false ∧ s.inputs = [] ∧ step s = .next s) ∨
    (∃ e rest, s.inputs = e :: rest ∧ s.nextInput = some e ∧
        step s = inputStep e { s.takeTurn with inputs := rest }) ∨
    (∃ i, s.inFlight = some i ∧ s.nextInput = none ∧ step s = exec i s.takeTurn) := by
  simp only [step, agentStep, State.nextInput, State.nextAgent]
  cases hb : s.busy with
  | false =>
    cases hin : s.inputs with
    | nil => exact .inl ⟨rfl, rfl, rfl⟩
    | cons e rest => exact .inr (.inl ⟨e, rest, rfl, rfl, by simp [hostStep, hin]⟩)
  | true =>
    obtain ⟨i, hi⟩ : ∃ i, s.inFlight = some i := Option.isSome_iff_exists.1 hb
    have he : engineStep s.takeTurn = exec i s.takeTurn := by simp [engineStep, hi]
    cases hin : s.inputs with
    | nil => exact .inr (.inr ⟨i, hi, rfl, by simpa using he⟩)
    | cons e rest =>
      cases ht : s.turns.headD .engine with
      | host => exact .inr (.inl ⟨e, rest, rfl, by simp, by simp [hostStep, hin]⟩)
      | engine => exact .inr (.inr ⟨i, hi, by simp, by simpa using he⟩)

/-- What a write to CMD can do (60_exceptions R242). -/
theorem writeCmd_cases (w : Word) (s : State) :
    (s.busy = true ∧ writeCmd w s = .next s.refuse) ∨
    (∃ i, s.busy = false ∧ decode w = .command i ∧ writeCmd w s = exec i s) ∨
    (∃ e, s.busy = false ∧ decode w = .error e ∧
        writeCmd w s = .next ((s.prepare w).fail (decodeErrCode e) 0x04)) := by
  unfold writeCmd
  cases hb : s.busy with
  | true => exact .inl ⟨rfl, by simp⟩
  | false =>
    cases hd : decode w with
    | command i => exact .inr (.inl ⟨i, rfl, rfl, by simp⟩)
    | error e => exact .inr (.inr ⟨e, rfl, rfl, by simp⟩)

end Sys2Proof.Machine
end

