-- ==== Sys2Proof/Laws/Host.lean ====
section
/-! SUPPORT. Everything one input of the outside world can do. -/

namespace Sys2Proof.Machine

/-- What the decoding of an access says about the access (20_memory R61 to R63). -/
theorem target_spec (cfg : Config) (a : Access) :
    match target cfg a with
    | .outside => True
    | .malformed off => a.addr = cfg.rngeBase + off ∧ off < apertureSize ∧ (a.size ≠ 4 ∨ off % 4 ≠ 0)
    | .register off r => a.addr = cfg.rngeBase + off ∧ a.size = 4 ∧ off < 0x001000 ∧ regAt off = r
    | .unmapped off => a.addr = cfg.rngeBase + off ∧ a.size = 4 ∧ 0x001000 ≤ off ∧ off < 0x080000
    | .window off sp j => a.addr = cfg.rngeBase + off ∧ a.size = 4 ∧ off = windowOffset sp j ∧ windowHolds sp j := by
  unfold target
  by_cases h1 : a.addr < cfg.rngeBase ∨ cfg.rngeBase + apertureSize ≤ a.addr
  · simp [h1]
  · rw [if_neg h1]
    obtain ⟨off, hoff⟩ : ∃ off, a.addr = cfg.rngeBase + off := ⟨a.addr - cfg.rngeBase, by omega⟩
    have hlt : off < apertureSize := by omega
    simp only [hoff, Nat.add_sub_cancel_left]
    by_cases h2 : a.size ≠ 4 ∨ off % 4 ≠ 0
    · rw [if_pos h2]
      exact ⟨rfl, hlt, h2⟩
    · rw [if_neg h2]
      have hsize : a.size = 4 := by omega
      have hal : off % 4 = 0 := by omega
      unfold regionAt
      unfold apertureSize at hlt
      by_cases h3 : off < 0x001000
      · rw [if_pos h3]
        exact ⟨rfl, hsize, h3, rfl⟩
      · rw [if_neg h3]
        by_cases h4 : off < 0x080000
        · rw [if_pos h4]
          exact ⟨rfl, hsize, by omega, h4⟩
        · rw [if_neg h4]
          by_cases h5 : off < 0x100000
          · rw [if_pos h5]
            exact ⟨rfl, hsize, by simp only [windowOffset]; omega, by simp only [windowHolds]; omega⟩
          · rw [if_neg h5]
            exact ⟨rfl, hsize, by simp only [windowOffset]; omega, by simp only [windowHolds]; omega⟩

/-- A mapped offset stands in the register map with its register (10_state R23). -/
theorem regAt_mem {off : Nat} {r : Reg} (h : regAt off = some r) :
    (off, r) ∈ controlMap ++ operandMap ++ resultMap := by
  unfold regAt at h
  obtain ⟨l1, l2, he, -⟩ := List.lookup_eq_some_iff.1 h
  rw [he]
  simp

/-- Everything one input can do: a hardware reset; an access that only gets an answer; a write to CTRL, STATUS, CMD or
an operand register; or a read or write of a window. -/
theorem inputStep_cases (e : Input) (s : State) :
    (e = .hardReset ∧ inputStep e s = .next s.hardReset) ∨
    (∃ r, inputStep e s = .next (s.respond r)) ∨
    (∃ v, e = hostWrite s.cfg 0x008 v ∧ inputStep e s = .next ((s.respond (.written 0x008)).writeCtrl v)) ∨
    (∃ v, e = hostWrite s.cfg 0x00C v ∧ inputStep e s = .next ((s.respond (.written 0x00C)).writeStatus v)) ∨
    (∃ v, e = hostWrite s.cfg 0x010 v ∧ inputStep e s = writeCmd v (s.respond (.written 0x010))) ∨
    (∃ r v, e = hostWrite s.cfg (operandOffset r) v ∧
      inputStep e s = .next ((s.respond (.written (operandOffset r))).writeOperand r v)) ∨
    (∃ sp j, windowHolds sp j ∧
      ((e = hostRead s.cfg (windowOffset sp j) ∧ inputStep e s = readWindow sp (windowOffset sp j) j s) ∨
       ∃ v, e = hostWrite s.cfg (windowOffset sp j) v ∧
        inputStep e s = .next (writeWindow sp (windowOffset sp j) j v s))) := by
  cases e with
  | hardReset => exact .inl ⟨rfl, rfl⟩
  | access a =>
    right
    obtain ⟨addr, size, kind⟩ := a
    have hs := target_spec s.cfg ⟨addr, size, kind⟩
    simp only [inputStep, hostAccess]
    cases ht : target s.cfg ⟨addr, size, kind⟩ with
    | outside => exact .inl ⟨_, rfl⟩
    | malformed off => exact .inl ⟨_, rfl⟩
    | unmapped off => cases kind <;> exact .inl ⟨_, rfl⟩
    | window off sp j =>
      rw [ht] at hs
      obtain ⟨rfl, rfl, rfl, hw⟩ := hs
      cases kind with
      | read => exact .inr (.inr (.inr (.inr (.inr ⟨sp, j, hw, .inl ⟨rfl, rfl⟩⟩))))
      | write v => exact .inr (.inr (.inr (.inr (.inr ⟨sp, j, hw, .inr ⟨v, rfl, rfl⟩⟩))))
    | register off r =>
      rw [ht] at hs
      obtain ⟨rfl, rfl, -, hr⟩ := hs
      cases r with
      | none => cases kind <;> exact .inl ⟨_, rfl⟩
      | some r =>
        cases kind with
        | read => exact .inl ⟨_, rfl⟩
        | write v =>
          have hm := regAt_mem hr
          simp only [controlMap, operandMap, resultMap, List.cons_append, List.nil_append, List.mem_cons,
            Prod.mk.injEq, List.not_mem_nil, or_false] at hm
          cases r with
          | ctrl => simp at hm; subst hm; exact .inr (.inl ⟨v, rfl, rfl⟩)
          | status => simp at hm; subst hm; exact .inr (.inr (.inl ⟨v, rfl, rfl⟩))
          | cmd => simp at hm; subst hm; exact .inr (.inr (.inr (.inl ⟨v, rfl, rfl⟩)))
          | operand q =>
            refine .inr (.inr (.inr (.inr (.inl ⟨q, v, ?_⟩))))
            cases q <;> (simp at hm; subst hm; exact ⟨rfl, rfl⟩)
          | _ => exact .inl ⟨_, rfl⟩

/-! ## The accesses by name -/

/-- An aligned access of 4 bytes inside the aperture goes where its offset leads (20_memory R61, R63). -/
theorem target_aligned (cfg : Config) {off : Nat} (k : AccessKind) (h : off < 0x200000) (h4 : off % 4 = 0) :
    target cfg { addr := cfg.rngeBase + off, size := 4, kind := k } =
      (match regionAt off with
        | .regWindow => Target.register off (regAt off)
        | .unmapped => Target.unmapped off
        | .window sp j => Target.window off sp j) := by
  unfold target apertureSize
  rw [if_neg (by simp only; omega)]
  simp only [Nat.add_sub_cancel_left, h4]
  rfl

/-- A mapped offset is an aligned offset of the REG window. -/
theorem regAt_aligned {off : Nat} {r : Reg} (h : regAt off = some r) : off < 0x001000 ∧ off % 4 = 0 := by
  have hm := regAt_mem h
  simp only [controlMap, operandMap, resultMap, List.cons_append, List.nil_append, List.mem_cons, Prod.mk.injEq,
    List.not_mem_nil, or_false] at hm
  omega

theorem target_mapped (cfg : Config) {off : Nat} {r : Reg} (k : AccessKind) (h : regAt off = some r) :
    target cfg { addr := cfg.rngeBase + off, size := 4, kind := k } = .register off (some r) := by
  obtain ⟨hlt, h4⟩ := regAt_aligned h
  rw [target_aligned cfg k (by omega) h4, show regionAt off = .regWindow from if_pos hlt, h]

/-- A read of a mapped register only answers its value (20_memory R64, R72). -/
theorem inputStep_read {off : Nat} {r : Reg} (h : regAt off = some r) (s : State) :
    inputStep (hostRead s.cfg off) s = .next (s.respond (.data off (s.readReg r))) := by
  simp only [inputStep, hostRead, hostAccess, target_mapped s.cfg .read h]

/-- A write of a mapped register but CMD (20_memory R64). -/
theorem inputStep_write {off : Nat} {r : Reg} (h : regAt off = some r) (hr : r ≠ .cmd) (v : Word) (s : State) :
    inputStep (hostWrite s.cfg off v) s = .next ((s.respond (.written off)).writeReg v r) := by
  simp only [inputStep, hostWrite, hostAccess, target_mapped s.cfg (.write v) h]

/-- A write to CMD (60_exceptions R242). -/
theorem inputStep_writeCmd (v : Word) (s : State) :
    inputStep (hostWrite s.cfg 0x010 v) s = writeCmd v (s.respond (.written 0x010)) := by
  simp only [inputStep, hostWrite, hostAccess, target_mapped s.cfg (.write v) (show regAt 0x010 = some .cmd from rfl)]

/-- A word of a window's range has its offset in the aperture (20_memory R61, R65, R66). -/
theorem target_window (cfg : Config) {sp : Space} {j : Nat} (k : AccessKind) (h : windowHolds sp j) :
    target cfg { addr := cfg.rngeBase + windowOffset sp j, size := 4, kind := k } =
      .window (windowOffset sp j) sp j := by
  cases sp <;> simp only [windowHolds, windowOffset] at h ⊢ <;>
    rw [target_aligned cfg k (by omega) (by omega)] <;> unfold regionAt
  · rw [if_neg (by omega), if_neg (by omega), if_neg (by omega)]
    simp only [Nat.add_sub_cancel_left, Nat.mul_div_cancel_left _ (show 0 < 4 by omega)]
  · rw [if_neg (by omega), if_neg (by omega), if_pos (by omega)]
    simp only [Nat.add_sub_cancel_left, Nat.mul_div_cancel_left _ (show 0 < 4 by omega)]

theorem inputStep_readWindow {sp : Space} {j : Nat} (h : windowHolds sp j) (s : State) :
    inputStep (hostRead s.cfg (windowOffset sp j)) s = readWindow sp (windowOffset sp j) j s := by
  simp only [inputStep, hostRead, hostAccess, target_window s.cfg .read h]

theorem inputStep_writeWindow {sp : Space} {j : Nat} (h : windowHolds sp j) (v : Word) (s : State) :
    inputStep (hostWrite s.cfg (windowOffset sp j) v) s = .next (writeWindow sp (windowOffset sp j) j v s) := by
  simp only [inputStep, hostWrite, hostAccess, target_window s.cfg (.write v) h]

end Sys2Proof.Machine
end

