-- ==== Sys2Proof/Laws/PerInstr.lean ====
section
/-! SUPPORT. Statements made per command: the family `CarriesFields`, that a well-formed command's word carries the
command's OPC, LSBF, SA and WIDTH (30_encoding R85, R96). -/

namespace Sys2Proof.Laws.CarriesFields

/-- The word of `i` has `i`'s OPC in bits 7:0, LSBF in bit 8, SA in bit 9 and WIDTH in bits 23:16. -/
def Statement (i : Instr) : Prop :=
  i.wf = true → wordOpc (encode i) = i.opcode ∧ wordLsbf (encode i) = i.lsbf ∧ wordSa (encode i) = i.sa ∧
    (wordWidth (encode i)).toNat = i.width

theorem nop : Statement .nop := encode_fields
theorem pack (lsbf : Bool) (width : Nat) : Statement (.pack lsbf width) := encode_fields
theorem genLcg (lsbf sa : Bool) (width : Nat) : Statement (.genLcg lsbf sa width) := encode_fields
theorem genPm (lsbf sa : Bool) (width : Nat) : Statement (.genPm lsbf sa width) := encode_fields
theorem genPcg32 (lsbf sa : Bool) (width : Nat) : Statement (.genPcg32 lsbf sa width) := encode_fields
theorem genSm64 (lsbf sa : Bool) (width : Nat) : Statement (.genSm64 lsbf sa width) := encode_fields
theorem genLfsr (lsbf : Bool) (width : Nat) : Statement (.genLfsr lsbf width) := encode_fields
theorem rank : Statement .rank := encode_fields
theorem dft : Statement .dft := encode_fields
theorem bm : Statement .bm := encode_fields
theorem lincomp : Statement .lincomp := encode_fields

end Sys2Proof.Laws.CarriesFields
end

