-- ==== Sys2Proof/Tests/Slice0.lean ====
section
/-! SUPPORT. The model's own tests, with expected values from spec/95_test_vectors.md and the rules' examples, and one
witness for the hypotheses of each statement that has any. -/

namespace Sys2Proof.Tests

open Sys2Proof.Machine

/-! ## Small states -/

/-- What `f` sees in the next state, none at a fault or refusal. -/
def seen {α : Type} (o : Host.Outcome State Fault Refusal) (f : State → α) : Option α :=
  match o with
  | .next t => some (f t)
  | .fault _ => none
  | .refused _ => none

/-- The bits of a string of 0 and 1. -/
def bitsOf (str : String) : List Bool := str.toList.map (· == '1')

/-- A state with OP's operands `o`, command `i` latched and in flight, and BITMEM holding `bits` from address 0. -/
def inFlightState (o : OpSet) (i : Instr) (bits : List Bool) : State :=
  { State.reset with
    op := { o with opc := i.opcode, lsbf := i.lsbf, sa := i.sa, width := BitVec.ofNat 8 i.width }
    flight := true
    bitmem := Memory.cells 0 bits }

/-- A state with the operand registers `r` and no command in flight. -/
def idleState (r : OperandRegs) : State := { State.reset with regs := r }

/-- STATUS after the step of input `e` at `s`. -/
def statusAfter (e : Input) (s : State) : Option Word := seen (inputStep e s) State.statusWord

/-! ## Well-formedness: each check refuses an ill-formed term -/

theorem test_wf_refuses_wide_pack : Instr.wf (.pack false 256) = false := by decide
theorem test_wf_refuses_wide_generators :
    Instr.wf (.genLcg false false 256) = false ∧ Instr.wf (.genPm false false 300) = false ∧
    Instr.wf (.genPcg32 false true 256) = false ∧ Instr.wf (.genSm64 true false 999) = false ∧
    Instr.wf (.genLfsr true 256) = false := by decide
theorem test_wf_accepts_the_widest : Instr.wf (.pack true 255) = true ∧ Instr.wf .rank = true := by decide

/-! ## Decoding: words written out from 30_encoding R85 and R86 (95 section 2.1) -/

theorem test_decode_control :
    decode 0x00000000 = .command .nop ∧ decode 0x00000001 = .command (.pack false 0) ∧
    decode 0x00080101 = .command (.pack true 8) := by decide
theorem test_decode_generators :
    decode 0x001F0010 = .command (.genLcg false false 31) ∧ decode 0x00000210 = .command (.genLcg false true 0) ∧
    decode 0x00FF0111 = .command (.genPm true false 255) ∧ decode 0x00000212 = .command (.genPcg32 false true 0) ∧
    decode 0x00400013 = .command (.genSm64 false false 64) ∧ decode 0x00010118 = .command (.genLfsr true 1) ∧
    decode 0x00020018 = .command (.genLfsr false 2) := by decide
theorem test_decode_engines :
    decode 0x00000020 = .command .rank ∧ decode 0x00000028 = .command .dft ∧ decode 0x00000030 = .command .bm ∧
    decode 0x00000031 = .command .lincomp := by decide
theorem test_decode_reserved :
    decode 0x00000218 = .error .reserved ∧ decode 0x00000201 = .error .reserved ∧
    decode 0x00000220 = .error .reserved ∧ decode 0x00010020 = .error .reserved ∧
    decode 0x00000410 = .error .reserved ∧ decode 0x01000010 = .error .reserved ∧
    decode 0x00000100 = .error .reserved := by decide
theorem test_decode_unknown :
    decode 0x00000002 = .error .unknownOp ∧ decode 0x00000014 = .error .unknownOp ∧
    decode 0x000000FF = .error .unknownOp ∧ decode 0xFFFFFF02 = .error .unknownOp := by decide

/-! ## STATUS after each ending at issue (95 section 2.2) -/

theorem test_status_unknown_op :
    statusAfter (hostWrite Config.reference 0x010 0x00000002) State.reset = some 0x00040106 := by decide
theorem test_status_reserved :
    statusAfter (hostWrite Config.reference 0x010 0x00000220) State.reset = some 0x00040206 := by decide
theorem test_status_seed_absent :
    statusAfter (hostWrite Config.reference 0x010 0x00000210) State.reset = some 0x00080306 := by decide
theorem test_status_lfsr_width :
    statusAfter (hostWrite Config.reference 0x010 0x00020018) State.reset = some 0x00040406 := by decide
theorem test_status_lfsr_length :
    statusAfter (hostWrite Config.reference 0x010 0x00000018)
      (idleState { OperandRegs.reset with lfsrL := 5001 }) = some 0x00170406 := by decide
theorem test_status_bm_length_before_range :
    statusAfter (hostWrite Config.reference 0x010 0x00000030)
      (idleState { OperandRegs.reset with len := 5001, src := 8388608 }) = some 0x00150406 := by decide
theorem test_status_lincomp_block :
    statusAfter (hostWrite Config.reference 0x010 0x00000031)
      (idleState { OperandRegs.reset with blk := 5001 }) = some 0x00160406 := by decide
theorem test_status_rank_range_before_insufficient :
    statusAfter (hostWrite Config.reference 0x010 0x00000020)
      (idleState { OperandRegs.reset with src := 8388508, len := 200 }) = some 0x00140506 := by decide
theorem test_status_pack_range :
    statusAfter (hostWrite Config.reference 0x010 0x00020001)
      (idleState { OperandRegs.reset with dst := 8388607 }) = some 0x00130506 := by decide
theorem test_status_pack_last_bit_in_flight :
    statusAfter (hostWrite Config.reference 0x010 0x00010001)
      (idleState { OperandRegs.reset with dst := 8388607 }) = some 0x00000001 := by decide
theorem test_status_dft_insufficient :
    statusAfter (hostWrite Config.reference 0x010 0x00000028)
      (idleState { OperandRegs.reset with len := 1 }) = some 0x0000000A := by decide
theorem test_status_nop_clears_error :
    statusAfter (hostWrite Config.reference 0x010 0x00000000)
      { State.reset with
        status := { done := true, err := true, insuff := false, ovr := false, errCode := .cfgSeedAbsent, errInfo := 0 } }
      = some 0x00000002 := by decide

/-! ## Commands (95 sections 2.3 to 2.12) -/

/-- PACK of 0xB5 in 8 bits, MSB first, at 0: word 0 bits 7:0 read 0xAD. -/
theorem test_pack_msb :
    seen (exec (.pack false 8) (inFlightState { OpSet.empty with seed := 0xB5 } (.pack false 8) []))
      (fun t => (t.bitmem, t.res.res0)) = some (Memory.cells 0 (bitsOf "10110101"), 8) := by decide
theorem test_pack_lsb_truncates :
    pack 0xB5 4 false = bitsOf "1010" ∧ pack 0x3 6 true = bitsOf "000011" ∧ pack 0xB5 0 true = [] := by decide

/-- The IORNG scenario as corrected by 90 C1. -/
theorem test_genLcg_scenario :
    seen (exec (.genLcg false false 31)
      (inFlightState { OpSet.empty with seed := 123456789, lcga := 1103515245, lcgc := 12345, lcgm := 0x80000000,
                                        nbits := 31 } (.genLcg false false 31) []))
      (fun t => (t.bitmem, t.stateLo, t.res.res1))
      = some (Memory.cells 0 (bitsOf "0001101110100001110100000101010"), 231794730, 1) := by decide +kernel
theorem test_genLcg_modulus_two_to_64 :
    seen (exec (.genLcg false false 0)
      (inFlightState { OpSet.empty with seed := 1, lcga := 6364136223846793005, lcgc := 1442695040888963407, nbits := 65 }
        (.genLcg false false 0) []))
      (fun t => (t.stateHi, t.stateLo, t.res.res1, t.bitmem.read 0)) = some (0x6C576FAC, 0x43FD007C, 1, some false) := by
  decide +kernel

theorem test_genPm_seed_one :
    seen (exec (.genPm false false 0) (inFlightState { OpSet.empty with seed := 1, nbits := 93 } (.genPm false false 0) []))
      (fun t => (t.stateLo, t.res.res1)) = some (1622650073, 3) := by decide +kernel
theorem test_genPm_seed_forced :
    pmSeed 0 = 1 ∧ pmSeed 2147483647 = 1 ∧ pmSeed (2 ^ 64 - 1) = 3 ∧ schrageStep 16807 5 = 84035 := by decide

theorem test_genPcg32_noseed :
    seen (exec (.genPcg32 false true 0) (inFlightState { OpSet.empty with nbits := 64 } (.genPcg32 false true 0) []))
      (fun t => (t.stateHi, t.stateLo, (t.bitmem.readSeq 0 32).toOption.map wordOfBits))
      = some (0x6E264C49, 0xB3042B19, some 0x2E4749A8) := by decide +kernel
theorem test_genPcg32_first_output :
    pcgPerm (pcgStep 0x6D (pcgInit 0x6D 42)) = 0x7B47F409 ∧ pcgInit 3 1 = 0x6147D0B53255FCB7 := by decide +kernel

theorem test_genSm64_seed_one :
    seen (exec (.genSm64 false false 0) (inFlightState { OpSet.empty with seed := 1, nbits := 64 } (.genSm64 false false 0) []))
      (fun t => (t.stateHi, t.stateLo, (t.bitmem.readSeq 0 32).toOption.map wordOfBits))
      = some (0x9E3779B9, 0x7F4A7C16, some 0x37B45089) := by decide +kernel
theorem test_genSm64_mix : smMix 0x9E3779B97F4A7C16 = 0x910A2DEC89025CC1 ∧ smMix smGamma = 0xE220A8397B1DCDAF := by
  decide +kernel

/-- L = 4, C = 1 + x^3 + x^4, initial state 1101, n = 13. -/
theorem test_genLfsr_example :
    seen (exec (.genLfsr false 0)
      { inFlightState { OpSet.empty with lfsrL := 4, nbits := 13, dst := 32 } (.genLfsr false 0) (bitsOf "1101") with
        polymem := Memory.cells 0 (bitsOf "10011") })
      (fun t => ((t.bitmem.readSeq 32 13).toOption, t.stateLo)) = some (some (bitsOf "1101011110001"), 0x1AF1) := by
  decide +kernel
theorem test_genLfsr_unmarked_coefficient :
    exec (.genLfsr false 0)
      { inFlightState { OpSet.empty with lfsrL := 4, nbits := 13 } (.genLfsr false 0) (bitsOf "1101") with
        polymem := Memory.cells 0 (bitsOf "100") } = .fault (.uninitRead .polymem 3) := by rfl

theorem test_rank_row_values :
    rankGF2 ((List.range 32).map (BitVec.ofNat 32)) = 5 ∧ rankGF2 (List.replicate 32 0xFFFFFFFF) = 1 := by
  decide +kernel
theorem test_rank_identity_and_singular :
    rankGF2 ((List.range 32).map (BitVec.twoPow 32)) = 32 ∧
    rankGF2 ((List.range 31).map (BitVec.twoPow 32) ++ [0]) = 31 := by decide +kernel

theorem test_dft_example :
    seen (exec .dft (inFlightState { OpSet.empty with len := 4 } .dft (bitsOf "1011")))
      (fun t => (t.res.res0, t.res.res1, t.res.res2, t.res.res3)) = some (4, 2, 2, 3) := by decide +kernel
theorem test_dft_ten_ones :
    dftCount Config.reference 0 (bitsOf "1111111111") = 4 ∧ dftCount Config.reference 0 (bitsOf "0000000011") = 4 ∧
    dftCount Config.reference 0 (bitsOf "1001010011") = 5 := by decide +kernel

theorem test_bm_example :
    seen (exec .bm (inFlightState { OpSet.empty with len := 13 } .bm (bitsOf "1101011110001")))
      (fun t => (t.res.res0, t.res.res1, t.res.res2, t.polymem))
      = some (4, 13, 4, Memory.cells 0 (bitsOf "10011000000000")) := by decide +kernel
theorem test_bm_degree_below_length :
    (berlekampMassey (bitsOf "1000")).1 = 1 ∧ polyDegree (berlekampMassey (bitsOf "1000")).2 = 0 ∧
    (berlekampMassey (bitsOf "1001101")).1 = 4 ∧ polyDegree (berlekampMassey (bitsOf "1001101")).2 = 2 := by
  decide +kernel

theorem test_lincomp_example :
    seen (exec .lincomp (inFlightState { OpSet.empty with len := 12, blk := 4 } .lincomp (bitsOf "110101111000")))
      (fun t => t.res) = some { res0 := 3, res3 := 1, res4 := 2 } := by decide +kernel
theorem test_category_bounds :
    (List.map (fun l => complexityCategory l 500) [247, 248, 249, 250, 251, 252, 253]) = [0, 1, 2, 3, 4, 5, 6] ∧
    complexityCategory 6 5 = 0 ∧ complexityCategory 0 5 = 6 := by decide

/-! ## The host's side -/

/-- P3's first window word. -/
theorem test_window_write_then_read :
    (seen (inputStep (hostWrite Config.reference 0x100000 0x000011EB) State.reset) fun t =>
      seen (inputStep (hostRead Config.reference 0x100000) t) fun u => u.responses.head?)
      = some (some (some (.data 0x100000 0x000011EB))) := by decide +kernel
theorem test_window_refused_while_busy :
    seen (inputStep (hostRead Config.reference 0x100000) (inFlightState OpSet.empty .rank []))
      (fun t => (t.statusWord, t.responses)) = some (0x00000011, [.data 0x100000 0]) := by decide
theorem test_status_clear_script :
    seen (inputStep (hostWrite Config.reference 0x00C 0x1E)
      { State.reset with
        status := { done := true, err := true, insuff := true, ovr := true, errCode := .cfgRange, errInfo := 0x13 } })
      State.statusWord = some 0 := by decide
theorem test_bus_error :
    inputStep (.access { addr := 0x102, size := 4, kind := .read }) State.reset
      = .next { State.reset with responses := [.busError 0x102 4] } := by rfl
theorem test_fetch_first_after_reset :
    seen (step (State.reset.withFetchWord 32 0x00000030)) (fun t => (t.inFlight, t.statusWord))
      = some (some .bm, 0x00000001) := by decide
theorem test_decodeTableWord : decodeTableWord 32 0x00080101 = some (.pack true 8) := by decide

end Sys2Proof.Tests
end

