-- ==== Sys2Proof/Tests/Witnesses.lean ====
section
/-! SUPPORT. For each statement with hypotheses, a concrete state and operands that meet them together (one theorem
for each clause where the clauses have hypotheses of their own). -/

namespace Sys2Proof.Tests

open Sys2Proof.Machine

/-! ## States -/

/-- Reset with the host's inputs `es`. -/
def withInputs (es : List Input) : State := { State.reset with inputs := es }

/-- `i` in flight with the host's inputs `es` and `turns`. -/
def racing (i : Instr) (es : List Input) (turns : List Agent) : State :=
  { inFlightState OpSet.empty i [] with inputs := es, turns := turns }

/-- A write to the aperture of the reference configuration. -/
def wr (off : Nat) (v : Word) : Input := hostWrite Config.reference off v

/-- The step goes on. -/
def goesOn (s : State) : Bool := (seen (step s) fun _ => ()).isSome

/-- The fault an outcome stops with, if it does. -/
def faultOf (o : Host.Outcome State Fault Refusal) : Option Fault :=
  match o with
  | .next _ => none
  | .fault f => some f
  | .refused _ => none

/-! ## Encoding -/

theorem witness_DecodeOfEncodeIsTheCommand : Instr.wf (.genLcg true true 255) = true := by decide
theorem witness_EncodeOfDecodedIsTheWord : decode 0x00FF0313 = .command (.genSm64 true true 255) := by decide
theorem witness_DecodeIsTotalAndOrdered_unassigned : (0xFFFFFF32 : Word).toNat % 256 ∉ assignedOpcodes := by decide
theorem witness_DecodeIsTotalAndOrdered_reserved :
    (0x00000231 : Word).toNat % 256 ∈ assignedOpcodes ∧ reservedBitSet 0x00000231 := by
  unfold reservedBitSet; decide
theorem witness_DecodeIsTotalAndOrdered_command :
    (0x00FF0313 : Word).toNat % 256 ∈ assignedOpcodes ∧ ¬reservedBitSet 0x00FF0313 := by
  unfold reservedBitSet; decide

/-! ## Steps -/

theorem witness_StepRunsTheDecodedCommand :
    (withInputs [wr 0x010 0x30]).busy = false ∧
    (withInputs [wr 0x010 0x30]).inputs = hostWrite (withInputs []).cfg 0x010 0x30 :: [] ∧
    decode 0x30 = .command .bm := by decide
theorem witness_StepCompletesTheCommandInFlight_alone :
    (racing .rank [] []).inFlight = some .rank ∧ (racing .rank [] []).inputs = [] := by decide
theorem witness_StepCompletesTheCommandInFlight_race :
    (racing .rank [.hardReset] [.engine]).inFlight = some .rank ∧
    (racing .rank [.hardReset] [.engine]).turns.head? ≠ some .host := by decide
theorem witness_StepTakesTheHostsInputOrIdles_idle :
    (withInputs [.hardReset]).busy = false ∧ (withInputs [.hardReset]).inputs = .hardReset :: [] := by decide
theorem witness_StepTakesTheHostsInputOrIdles_race :
    (racing .bm [wr 8 2] [.host, .engine]).busy = true ∧ (racing .bm [wr 8 2] [.host, .engine]).inputs = wr 8 2 :: [] ∧
    (racing .bm [wr 8 2] [.host, .engine]).turns = .host :: [.engine] := by decide
theorem witness_StepTakesTheHostsInputOrIdles_nothing :
    State.reset.busy = false ∧ State.reset.inputs = [] := by decide
theorem witness_IllegalWordsAreReported :
    State.reset.busy = false ∧ (0x02 : Word).toNat % 256 ∉ assignedOpcodes ∧ reservedBitSet 0x00000401 := by
  unfold reservedBitSet; decide

/-! ## Issue -/

theorem witness_IssueLatchesAndClears_illegal_word :
    State.reset.busy = false ∧ decode 0x00000220 = .error .reserved := by decide
theorem witness_IssueLatchesAndClears :
    (idleState { OperandRegs.reset with seedHi := 7 }).busy = false ∧ Instr.wf (.genPm true false 255) = true := by decide
theorem witness_AcceptedCommandIsInFlight : Instr.wf (.genLfsr true 255) = true ∧ Instr.genLfsr true 255 ≠ .nop := by
  decide
theorem witness_NopEndsAtIssue : State.reset.busy = false := by decide
theorem witness_PackIssue : (idleState { OperandRegs.reset with dst := 8388607 }).busy = false ∧ 255 < 256 := by decide
theorem witness_GeneratorIssue : (idleState { OperandRegs.reset with nbits := 64 }).busy = false ∧ 0 < 256 := by decide
theorem witness_LfsrIssue : (idleState { OperandRegs.reset with lfsrL := 5000 }).busy = false ∧ 2 < 256 := by decide
theorem witness_AnalysisIssue : (idleState { OperandRegs.reset with len := 1024 }).busy = false := by decide
theorem witness_CommandEndsInOneOfFourWays :
    State.reset.busy = false ∧ Instr.wf .lincomp = true ∧ (racing .lincomp [] []).inFlight = some .lincomp := by decide

/-! ## PACK and the generators -/

theorem witness_PackCompletes :
    (inFlightState OpSet.empty (.pack true 255) []).inFlight = some (.pack true 255) := by decide
theorem witness_PackOrdersAreReverses :
    (inFlightState OpSet.empty (.pack true 9) []).inFlight = some (.pack true 9) ∧
    (inFlightState OpSet.empty (.pack false 9) []).inFlight = some (.pack false 9) ∧
    (inFlightState OpSet.empty (.pack true 9) []).op.seed = (inFlightState OpSet.empty (.pack false 9) []).op.seed ∧
    (inFlightState OpSet.empty (.pack true 9) []).op.dst = (inFlightState OpSet.empty (.pack false 9) []).op.dst := by
  decide
theorem witness_LcgCompletes_given_width :
    (inFlightState OpSet.empty (.genLcg false false 31) []).inFlight = some (.genLcg false false 31) ∧
    (if (31 : Nat) = 0 then 2 ^ 64 < 2 ^ 31 ∧ ∀ k, 2 ^ 64 < 2 ^ k → 31 ≤ k else 31 = 31) := by
  exact ⟨by decide, by rw [if_neg (by decide)]⟩
theorem witness_LcgCompletes_default_width :
    (inFlightState { OpSet.empty with lcgm := 16 } (.genLcg false false 0) []).inFlight = some (.genLcg false false 0) ∧
    (if (0 : Nat) = 0 then 16 < 2 ^ 5 ∧ ∀ k, 16 < 2 ^ k → 5 ≤ k else 5 = 0) := by
  refine ⟨by decide, ?_⟩
  rw [if_pos rfl]
  refine ⟨by decide, fun k hk => ?_⟩
  by_contra hlt
  have : 2 ^ k ≤ 2 ^ 4 := Nat.pow_le_pow_right (by decide) (by omega)
  omega
theorem witness_ParkMillerCompletes :
    (inFlightState OpSet.empty (.genPm true false 0) []).inFlight = some (.genPm true false 0) := by decide
theorem witness_SchrageStepIsTheModularProduct :
    Config.reference.valid ∧ 1 ≤ 2147483646 ∧ 2147483646 ≤ 2147483646 := by decide
theorem witness_PcgCompletes :
    (inFlightState OpSet.empty (.genPcg32 false true 255) []).inFlight = some (.genPcg32 false true 255) := by decide
theorem witness_SplitMixCompletes :
    (inFlightState OpSet.empty (.genSm64 true true 64) []).inFlight = some (.genSm64 true true 64) := by decide
theorem witness_GeneratorsDependOnlyOnOperands :
    (∃ l a w, Instr.genPcg32 false true 8 = .genLcg l a w ∨ Instr.genPcg32 false true 8 = .genPm l a w ∨
      Instr.genPcg32 false true 8 = .genPcg32 l a w ∨ Instr.genPcg32 false true 8 = .genSm64 l a w) ∧
    (inFlightState OpSet.empty (.genPcg32 false true 8) []).inFlight = some (.genPcg32 false true 8) ∧
    (inFlightState OpSet.empty (.genPcg32 false true 8) [true]).inFlight = some (.genPcg32 false true 8) ∧
    (inFlightState OpSet.empty (.genPcg32 false true 8) []).op =
      (inFlightState OpSet.empty (.genPcg32 false true 8) [true]).op ∧
    (inFlightState OpSet.empty (.genPcg32 false true 8) []).op.nbits = 0 :=
  ⟨⟨false, true, 8, .inr (.inr (.inl rfl))⟩, by decide⟩

/-! ## GEN_LFSR and the engines -/

/-- GEN_LFSR in flight on the example of 42 R170. -/
def lfsrState0 : State :=
  { inFlightState { OpSet.empty with lfsrL := 4, nbits := 13, dst := 32 } (.genLfsr true 1) (bitsOf "1101") with
    polymem := Memory.cells 0 (bitsOf "10011") }

theorem witness_LfsrCompletes :
    lfsrState0.inFlight = some (.genLfsr true 1) ∧ lfsrState0.bitmem.wf ∧ lfsrState0.polymem.wf ∧
    (bitsOf "1101").length = lfsrState0.op.lfsrL.toNat ∧ holdsBits lfsrState0.bitmem lfsrState0.op.src.toNat (bitsOf "1101") ∧
    (bitsOf "0011").length = lfsrState0.op.lfsrL.toNat ∧ holdsBits lfsrState0.polymem 1 (bitsOf "0011") := by
  unfold holdsBits; decide

/-- RANK in flight on one all-zero matrix. -/
def rankState0 : State := inFlightState { OpSet.empty with len := 1024 } .rank (List.replicate 1024 false)

theorem witness_RankCompletes :
    rankState0.inFlight = some .rank ∧ rankState0.bitmem.wf ∧ 1024 ≤ rankState0.op.len.toNat ∧
    ∀ k, k < rankState0.op.len.toNat / 1024 → (List.replicate 32 (0 : Word)).length = 32 ∧ ∀ r c, r < 32 → c < 32 →
      rankState0.bitmem.read (rankState0.op.src.toNat + 1024 * k + 32 * r + c)
        = some (((List.replicate 32 (0 : Word)).getD r 0).getLsbD c) := by
  refine ⟨by decide, Memory.cells_wf _ _, by decide, fun k hk => ⟨rfl, fun r c hr hc => ?_⟩⟩
  have hlen : rankState0.op.len.toNat / 1024 = 1 := by decide
  have hsrc : rankState0.op.src.toNat = 0 := by decide
  have hk0 : k = 0 := by omega
  subst hk0
  rw [hsrc]
  show List.lookup _ (Memory.cells 0 _) = _
  rw [Memory.lookup_cells, List.length_replicate, if_pos (by omega)]
  have e1 : (List.replicate 1024 false).getD (0 + 1024 * 0 + 32 * r + c - 0) false = false := by
    rw [List.getD_eq_getElem?_getD, List.getElem?_replicate]; split <;> rfl
  have e2 : (List.replicate 32 (0 : Word)).getD r 0 = 0 := by
    rw [List.getD_eq_getElem?_getD, List.getElem?_replicate]; split <;> rfl
  rw [e1, e2]
  simp
theorem witness_EliminationComputesTheRank : (List.replicate 32 (1 : Word)).length = 32 := by decide
theorem witness_DftCompletes :
    (inFlightState { OpSet.empty with len := 4 } .dft (bitsOf "1011")).inFlight = some .dft ∧
    (inFlightState { OpSet.empty with len := 4 } .dft (bitsOf "1011")).bitmem.wf ∧
    2 ≤ (inFlightState { OpSet.empty with len := 4 } .dft (bitsOf "1011")).op.len.toNat ∧
    (bitsOf "1011").length = (inFlightState { OpSet.empty with len := 4 } .dft (bitsOf "1011")).op.len.toNat ∧
    holdsBits (inFlightState { OpSet.empty with len := 4 } .dft (bitsOf "1011")).bitmem 0 (bitsOf "1011") := by
  unfold holdsBits; decide

theorem log_twenty_bounds : 1 < Real.log 20 ∧ Real.log 20 < 4 := by
  constructor
  · rw [Real.lt_log_iff_exp_lt (by norm_num)]
    have := Real.exp_one_lt_d9
    linarith
  · have h1 : Real.log 20 < Real.log (2 ^ 5) := Real.log_lt_log (by norm_num) (by norm_num)
    have h2 : Real.log (2 ^ 5) = 5 * Real.log 2 := by rw [Real.log_pow]; norm_num
    have h3 := Real.log_two_lt_d9
    linarith

theorem power_zero_of_two : Reference.power [true, false] 0 = 0 := by
  simp [Reference.power, Reference.spectrum, Finset.sum_range_succ, signOfBit]

theorem power_zero_of_ten_ones : Reference.power (List.replicate 10 true) 0 = 100 := by
  simp [Reference.power, Reference.spectrum, Finset.sum_range_succ, signOfBit, Complex.normSq_apply]
  norm_num

theorem power_zero_of_four : Reference.power [true, false, true, true] 0 = 4 := by
  simp [Reference.power, Reference.spectrum, Finset.sum_range_succ, signOfBit, Complex.normSq_apply]
  norm_num

theorem witness_DftVerdictIsExactOutsideTheBand_below :
    Config.reference.valid ∧ 2 ≤ [true, false].length ∧ 0 < [true, false].length / 2 ∧
    Reference.tolerance Config.reference * Reference.threshold 2 <
      |Reference.power [true, false] 0 - Reference.threshold 2| ∧
    Reference.power [true, false] 0 < Reference.threshold 2 := by
  have h := log_twenty_bounds
  rw [power_zero_of_two, lt_abs]
  simp only [Reference.threshold, Reference.tolerance, Config.reference]
  refine ⟨by decide, by decide, by decide, .inr ?_, ?_⟩ <;> norm_num <;> linarith
theorem witness_DftVerdictIsExactOutsideTheBand_above :
    Config.reference.valid ∧ 2 ≤ (List.replicate 10 true).length ∧ 0 < (List.replicate 10 true).length / 2 ∧
    Reference.tolerance Config.reference * Reference.threshold 10 <
      |Reference.power (List.replicate 10 true) 0 - Reference.threshold 10| ∧
    Reference.threshold 10 < Reference.power (List.replicate 10 true) 0 := by
  have h := log_twenty_bounds
  rw [power_zero_of_ten_ones, lt_abs]
  simp only [Reference.threshold, Reference.tolerance, Config.reference]
  refine ⟨by decide, by decide, by decide, .inl ?_, ?_⟩ <;> norm_num <;> linarith
theorem witness_DftVerdictIsExactOutsideTheBand_inside :
    ({ Config.reference with dftTolNum := 999, dftTolDen := 1000 } : Config).valid ∧
    2 ≤ [true, false, true, true].length ∧ 0 < [true, false, true, true].length / 2 ∧
    |Reference.power [true, false, true, true] 0 - Reference.threshold 4| ≤
      Reference.tolerance { Config.reference with dftTolNum := 999, dftTolDen := 1000 } * Reference.threshold 4 := by
  refine ⟨by decide, by decide, by decide, ?_⟩
  have h := log_twenty_bounds
  rw [power_zero_of_four, abs_le]
  simp only [Reference.threshold, Reference.tolerance]
  norm_num
  constructor <;> linarith

/-- BM in flight on the block of 45 R218's example. -/
def bmState0 : State := inFlightState { OpSet.empty with len := 13 } .bm (bitsOf "1101011110001")

theorem witness_BmCompletes :
    bmState0.inFlight = some .bm ∧ bmState0.bitmem.wf ∧ (bitsOf "1101011110001").length = bmState0.op.len.toNat ∧
    holdsBits bmState0.bitmem bmState0.op.src.toNat (bitsOf "1101011110001") := by
  unfold holdsBits; decide
theorem witness_BerlekampMasseyLengthIsMinimal : Reference.Generates 1 (fun _ => true) [true, true, true] := by
  intro j h1 h2
  have : j = 1 ∨ j = 2 := by simp only [List.length_cons, List.length_nil] at h2; omega
  rcases this with rfl | rfl <;> rfl
theorem witness_LfsrReplaysTheBlockOfBm :
    ∃ t1, exec .bm bmState0 = .next t1 ∧ bmState0.inFlight = some .bm ∧ bmState0.bitmem.wf ∧ bmState0.polymem.wf ∧
      ∃ s2 : State, s2.inFlight = some (.genLfsr false 0) ∧ s2.bitmem.wf ∧ s2.polymem = t1.polymem ∧
        s2.op.lfsrL = t1.res.res0 ∧ s2.op.nbits = bmState0.op.len ∧
        holdsBits s2.bitmem s2.op.src.toNat (bitsOf "1101011110001") := by
  refine ⟨_, rfl, by decide, by decide, by decide,
    { inFlightState { OpSet.empty with lfsrL := 4, nbits := 13 } (.genLfsr false 0) (bitsOf "1101011110001") with
      polymem := _ }, by decide, ?_, rfl, ?_, by decide, ?_⟩
  · exact Memory.cells_wf _ _
  · decide +kernel
  · exact (show ∀ i, i < _ → _ by decide)
theorem witness_LincompCompletes :
    (inFlightState { OpSet.empty with len := 5, blk := 2 } .lincomp (bitsOf "1101")).inFlight = some .lincomp ∧
    (inFlightState { OpSet.empty with len := 5, blk := 2 } .lincomp (bitsOf "1101")).bitmem.wf ∧
    (bitsOf "1101").length = 5 / 2 * 2 ∧
    holdsBits (inFlightState { OpSet.empty with len := 5, blk := 2 } .lincomp (bitsOf "1101")).bitmem 0 (bitsOf "1101") := by
  unfold holdsBits; decide
theorem witness_CategoryIsThePublishedBucket :
    1 ≤ 1 ∧ |Reference.complexityStatistic 1 1 - Reference.complexityStatistic 1 1| <
      1 / 2 - (((1 : Nat) : ℚ) / 3 + 2 / 9) / 2 ^ 1 := by
  norm_num

/-! ## Unmarked input and purity -/

theorem witness_UnmarkedInputIsTheModelFault_bitmem :
    (inFlightState { OpSet.empty with len := 4 } .dft [true, false]).inFlight = some .dft ∧
    (inFlightState { OpSet.empty with len := 4 } .dft [true, false]).bitmem.wf ∧
    2 < readBits .dft { OpSet.empty with len := 4 } ∧
    (inFlightState { OpSet.empty with len := 4 } .dft [true, false]).bitmem.read 2 = none ∧
    ∀ x, x < 2 → (inFlightState { OpSet.empty with len := 4 } .dft [true, false]).bitmem.read x ≠ none := by decide
theorem witness_UnmarkedInputIsTheModelFault_polymem :
    ({ lfsrState0 with polymem := Memory.cells 0 [true, true] }).inFlight = some (.genLfsr true 1) ∧
    (∀ x, x < 4 → ({ lfsrState0 with polymem := Memory.cells 0 [true, true] }).bitmem.read x ≠ none) ∧
    2 ≤ ({ lfsrState0 with polymem := Memory.cells 0 [true, true] }).op.lfsrL.toNat ∧
    ({ lfsrState0 with polymem := Memory.cells 0 [true, true] }).polymem.read 2 = none ∧
    ({ lfsrState0 with polymem := Memory.cells 0 [true, true] }).polymem.read 1 ≠ none := by decide
theorem witness_AnalysisDependsOnlyOnItsInput :
    (inFlightState { OpSet.empty with len := 2 } .dft [true, false]).inFlight = some .dft ∧
    (inFlightState { OpSet.empty with len := 2 } .dft [true, false, true]).inFlight = some .dft ∧
    (inFlightState { OpSet.empty with len := 2 } .dft [true, false]).op =
      (inFlightState { OpSet.empty with len := 2 } .dft [true, false, true]).op ∧
    (∀ a, a < readBits .dft { OpSet.empty with len := 2 } →
      (inFlightState { OpSet.empty with len := 2 } .dft [true, false]).bitmem.read a =
        (inFlightState { OpSet.empty with len := 2 } .dft [true, false, true]).bitmem.read a) ∧
    (seen (exec .dft (inFlightState { OpSet.empty with len := 2 } .dft [true, false])) fun _ => ()).isSome = true := by
  decide

/-! ## Registers and windows -/

theorem witness_BusErrorHasNoEffect :
    ({ addr := 0x1FFFFF, size := 1, kind := .read } : Access).addr = State.reset.cfg.rngeBase + 0x1FFFFF ∧
    0x1FFFFF < 0x200000 ∧ (1 ≠ 4 ∨ 0x1FFFFF % 4 ≠ 0) ∧ ((4 : Nat) ≠ 4 ∨ 2 % 4 ≠ 0) := by decide
theorem witness_IdentityAndCapabilityRegisters :
    (0x0CC = 0x0CC ∧ (16807 : Word) = BitVec.ofNat 32 State.reset.cfg.pmMult) ∧
    (8388608 : Word) = BitVec.ofNat 32 State.reset.cfg.bitmemBits ∧
    (5000 : Word) = BitVec.ofNat 32 State.reset.cfg.lcMMax ∧
    (1048576 : Word) = BitVec.ofNat 32 State.reset.cfg.dftNMax := by decide
theorem witness_ResultRegistersReadTheirValues :
    ∀ s : State, (0x0A8, s.elapsed) ∈
      [ (0x080, s.res.res0), (0x084, s.res.res1), (0x088, s.res.res2), (0x08C, s.res.res3), (0x090, s.res.res4),
        (0x094, s.res.res5), (0x098, s.res.res6), (0x09C, s.res.res7), (0x0A0, s.stateLo), (0x0A4, s.stateHi),
        (0x0A8, s.elapsed), (0x010, (0 : Word)) ] ∧ 0x0A8 ≠ 0x010 := by simp
theorem witness_UnmappedOffsetsReadZero :
    (0x01C % 4 = 0 ∧ 0x014 ≤ 0x01C ∧ 0x01C < 0x020) ∧ (0x07C % 4 = 0 ∧ 0x060 ≤ 0x07C ∧ 0x07C < 0x080) ∧
    (0x0AC % 4 = 0 ∧ 0x0AC < 0x0C0) ∧ (0x07FFFC % 4 = 0 ∧ 0x0D0 ≤ 0x07FFFC ∧ 0x07FFFC < 0x080000) := by decide
theorem witness_ControlRegister :
    (1 : Word).getLsbD 1 = false ∧ (3 : Word).getLsbD 1 = true ∧ State.reset.busy = false := by decide
theorem witness_SoftResetUnmarksTheAbortedRegion :
    bmState0.inFlight = some .bm ∧ lfsrState0.inFlight = some (.genLfsr true 1) ∧
    (racing (.pack false 9) [] []).inFlight = some (.pack false 9) ∧ (2 : Word).getLsbD 1 = true := by
  decide

/-- Idle, with word 0 of both memories written 1. -/
def windowState0 : State :=
  { State.reset with bitmem := Memory.cells 0 (bitsOfWord 1), polymem := Memory.cells 0 (bitsOfWord 1) }

theorem witness_WindowsReachTheirMemories_inside :
    windowState0.busy = false ∧ windowHolds .bitmem 0 ∧ windowHolds .polymem 0 ∧ (windowState0.mem .bitmem).wf ∧
    (windowState0.mem .polymem).wf ∧ 32 * 0 < capacityOf windowState0.cfg .bitmem ∧
    32 * 0 < capacityOf windowState0.cfg .polymem ∧
    (∀ b, b < 32 → (windowState0.mem .bitmem).read (32 * 0 + b) = some ((1 : Word).getLsbD b)) ∧
    (∀ b, b < 32 → (windowState0.mem .polymem).read (32 * 0 + b) = some ((1 : Word).getLsbD b)) := by
  unfold windowHolds; decide +kernel
theorem witness_WindowsReachTheirMemories_last_word :
    windowHolds .bitmem 262143 ∧ 32 * 262143 < capacityOf windowState0.cfg .bitmem ∧
    windowHolds .polymem 156 ∧ 32 * 156 < capacityOf windowState0.cfg .polymem := by
  unfold windowHolds; decide
theorem witness_WindowsReachTheirMemories_past :
    windowState0.busy = false ∧ windowHolds .polymem 157 ∧ (windowState0.mem .polymem).wf ∧
    capacityOf windowState0.cfg .polymem ≤ 32 * 157 := by
  unfold windowHolds; decide +kernel
theorem witness_WindowReadOfUnmarkedBitFaults :
    State.reset.busy = false ∧ windowHolds .bitmem 3 ∧ (State.reset.mem .bitmem).wf ∧
    32 * 3 < capacityOf State.reset.cfg .bitmem ∧ 0 < 32 ∧ (State.reset.mem .bitmem).read (32 * 3 + 0) = none := by
  unfold windowHolds; decide

/-! ## Whole-machine rules -/

theorem witness_AccessesRefusedWhileBusy :
    (racing .rank [] []).busy = true ∧ windowHolds .bitmem 0 ∧ windowHolds .polymem 65535 := by
  unfold windowHolds; decide
theorem witness_OverrunIsSetAndClearedOnlyAsNamed :
    goesOn (racing .rank [wr 0x010 0] [.host]) = true ∧
    seen (step (racing .rank [wr 0x010 0] [.host])) (fun t => t.status.ovr) = some true ∧
    (racing .rank [wr 0x010 0] [.host]).status.ovr = false ∧
    seen (step { withInputs [wr 0x00C 16] with status := { Status.reset with ovr := true } }) (fun t => t.status.ovr)
      = some false := by decide
theorem witness_DoneIsSetAndClearedOnlyAsNamed :
    seen (step (withInputs [wr 0x010 0])) (fun t => t.status.done) = some true ∧
    (withInputs [wr 0x010 0]).status.done = false ∧
    seen (step { withInputs [wr 0x00C 2] with status := { Status.reset with done := true } }) (fun t => t.status.done)
      = some false := by decide
theorem witness_InterruptOutput :
    State.irq { withInputs [wr 0x008 0] with irqEn := true, status := { Status.reset with done := true } } = true ∧
    seen (step { withInputs [wr 0x008 0] with irqEn := true, status := { Status.reset with done := true } }) State.irq
      = some false := by decide
theorem witness_MemoryChangesOnlyAsNamed :
    seen (step (withInputs [wr 0x100000 1])) (fun t => (t.bitmem.read 0, t.polymem.read 0)) = some (some true, none) ∧
    seen (step (withInputs [wr 0x080000 1])) (fun t => (t.bitmem.read 0, t.polymem.read 0)) = some (none, some true) := by
  decide
theorem witness_RegistersChangeOnlyAsNamed :
    seen (step (withInputs [wr 0x020 5])) (fun t => t.regs.get .seedLo) = some 5 ∧
    seen (step (withInputs [wr 0x008 1])) (fun t => t.irqEn) = some true ∧
    seen (step (withInputs [wr 0x010 0x212])) (fun t => t.op.sa) = some true ∧
    seen (step (racing (.pack false 9) [] [])) (fun t => t.res.res0) = some 9 := by decide

theorem witness_OnlyUnmarkedReadsStop :
    faultOf (step (withInputs [hostRead Config.reference 0x100004])) = some (.uninitRead .bitmem 32) ∧
    (withInputs [hostRead Config.reference 0x100004]).bitmem.wf ∧
    (withInputs [hostRead Config.reference 0x100004]).polymem.wf := by decide

/-- A state with a STATUS write to come meets the invariant and its step goes on. -/
theorem witness_StepKeepsTheInvariant :
    State.Inv (withInputs [wr 0x00C 2]) ∧ goesOn (withInputs [wr 0x00C 2]) = true := by
  refine ⟨?_, by decide⟩
  have hb : (withInputs [wr 0x00C 2]).busy = false := by decide
  have hf : (withInputs [wr 0x00C 2]).inFlight = none := by decide
  exact
    { cfg_valid := by decide
      bitmem_wf := List.Pairwise.nil
      polymem_wf := List.Pairwise.nil
      bitmem_bound := fun _ hc => absurd hc List.not_mem_nil
      polymem_bound := fun _ hc => absurd hc List.not_mem_nil
      err_code := by decide
      err_info := by decide
      no_reserved_code := by decide
      one_ending := by decide
      flight_busy := by decide
      busy_clean := fun h => by rw [hb] at h; cases h
      busy_checked := fun i h => by rw [hf] at h; cases h }

end Sys2Proof.Tests
end

section
/-! Decoding and encoding are inverse (30_encoding R85, R91, R92), from the fields of a word and the masks of
the table. -/
namespace Sys2Proof

/-- The bits of a command word by its four fields. -/
theorem getLsbD_assemble (o : Octet) (l a : Bool) (w : Octet) (i : Nat) :
    (assemble o l a w).getLsbD i =
      (o.getLsbD i || (decide (i = 8) && l) || (decide (i = 9) && a) || (decide (16 ≤ i) && w.getLsbD (i - 16))) := by
  have ho (h : 8 ≤ i) : o.getLsbD i = false := BitVec.getLsbD_of_ge _ _ h
  have hw (h : 24 ≤ i) : w.getLsbD (i - 16) = false := BitVec.getLsbD_of_ge _ _ (by omega)
  simp only [assemble, BitVec.getLsbD_or, BitVec.getLsbD_shiftLeft, BitVec.getLsbD_setWidth, BitVec.getLsbD_ofBool]
  grind

/-- A mask applied to a command word is applied to each of its fields. -/
theorem assemble_and (o : Octet) (l a : Bool) (w : Octet) (m : Word) :
    assemble o l a w &&& m = assemble (o &&& wordOpc m) (l && wordLsbf m) (a && wordSa m) (w &&& wordWidth m) := by
  apply BitVec.eq_of_getLsbD_eq
  intro i hi
  simp only [BitVec.getLsbD_and, getLsbD_assemble, wordOpc, wordLsbf, wordSa, wordWidth, BitVec.getLsbD_extractLsb']
  by_cases h16 : 16 ≤ i
  · obtain ⟨k, rfl⟩ := Nat.exists_eq_add_of_le h16
    have ho : o.getLsbD (16 + k) = false := BitVec.getLsbD_of_ge _ _ (by omega)
    have hw (h : 8 ≤ k) : w.getLsbD k = false := BitVec.getLsbD_of_ge _ _ h
    simp only [ho, Nat.add_sub_cancel_left]
    grind
  · have ho (h : 8 ≤ i) : o.getLsbD i = false := BitVec.getLsbD_of_ge _ _ h
    grind

/-- The bits 15:10 and 31:24, reserved in every command word (30_encoding R90). -/
theorem reserved_of_and_eq_zero {w : Word} (h : w &&& 0xFF00FC00 = 0) {i : Nat} (hi : i < 32)
    (hr : (10 ≤ i ∧ i < 16) ∨ 24 ≤ i) : w.getLsbD i = false := by
  have hm : ∀ i, i < 32 → (10 ≤ i ∧ i < 16) ∨ 24 ≤ i → (0xFF00FC00#32).getLsbD i = true := by decide
  have hb := congrArg (BitVec.getLsbD · i) h
  simpa [hm i hi hr] using hb

/-- A word whose bits 15:10 and 31:24 are clear is assembled from its fields. -/
theorem assemble_fields {w : Word} (h : w &&& 0xFF00FC00 = 0) :
    assemble (wordOpc w) (wordLsbf w) (wordSa w) (wordWidth w) = w := by
  apply BitVec.eq_of_getLsbD_eq
  intro i hi
  have hr := reserved_of_and_eq_zero h hi
  simp only [getLsbD_assemble, wordOpc, wordLsbf, wordSa, wordWidth, BitVec.getLsbD_extractLsb']
  grind

@[simp] theorem wordLsbf_and (w m : Word) : wordLsbf (w &&& m) = (wordLsbf w && wordLsbf m) := BitVec.getLsbD_and ..
@[simp] theorem wordSa_and (w m : Word) : wordSa (w &&& m) = (wordSa w && wordSa m) := BitVec.getLsbD_and ..
@[simp] theorem wordWidth_and (w m : Word) : wordWidth (w &&& m) = wordWidth w &&& wordWidth m :=
  BitVec.extractLsb'_and ..

/-- A command whose fields are those of a word without reserved bits is encoded by that word. -/
theorem encode_eq_of_fields {i : Instr} {w : Word} (h : w &&& 0xFF00FC00 = 0) (ho : i.opcode = wordOpc w)
    (hl : i.lsbf = wordLsbf w) (ha : i.sa = wordSa w) (hw : BitVec.ofNat 8 i.width = wordWidth w) : encode i = w := by
  rw [encode, ho, hl, ha, hw, assemble_fields h]

/-- Each row of the table requires the whole OPC and bits 15:10 and 31:24 clear, and its pattern is the bare OPC
(30_encoding R90, R92). -/
theorem encodingTable_rows : ∀ row ∈ encodingTable,
    row.mask &&& 0xFF00FC00 = 0xFF00FC00 ∧ row.pattern &&& 0xFF00FC00 = 0 ∧ row.opc &&& wordOpc row.mask = row.opc ∧
      row.pattern = assemble row.opc false false 0 ∧ encodingRow row.opc = some row := by decide

/-- The command of a row's OPC takes exactly the fields that the row's mask leaves free (30_encoding R92). -/
theorem ofFields_row {row : EncodingRow} (hr : row ∈ encodingTable) {l a : Bool} {wd : Octet} {i : Instr}
    (h : Instr.ofFields row.opc l a wd = some i) :
    i.wf = true ∧ i.opcode = row.opc ∧ i.lsbf = (l && !wordLsbf row.mask) ∧ i.sa = (a && !wordSa row.mask) ∧
      BitVec.ofNat 8 i.width = wd &&& ~~~wordWidth row.mask := by
  have hwd : wd.toNat < 256 := wd.isLt
  have hall : wd &&& 255#8 = wd := BitVec.and_allOnes
  simp only [encodingTable, List.mem_cons, List.not_mem_nil, or_false] at hr
  rcases hr with rfl | rfl | rfl | rfl | rfl | rfl | rfl | rfl | rfl | rfl | rfl
  all_goals
    cases h
    simp [Instr.wf, Instr.width, Instr.opcode, Instr.lsbf, Instr.sa, wordLsbf, wordSa, wordWidth, hwd, hall]

/-- A word that decodes matches the row of its OPC, and its fields name the command (30_encoding R91). -/
theorem decode_command {w : Word} {i : Instr} (h : decode w = .command i) :
    ∃ row ∈ encodingTable, row.opc = wordOpc w ∧ w &&& row.mask = row.pattern ∧
      Instr.ofFields (wordOpc w) (wordLsbf w) (wordSa w) (wordWidth w) = some i := by
  unfold decode at h
  cases hr : encodingRow (wordOpc w) with
  | none => simp [hr] at h
  | some row =>
    rw [encodingRow] at hr
    have ho : row.opc = wordOpc w := by simpa using List.find?_some hr
    by_cases hm : w &&& row.mask = row.pattern
    · cases hf : Instr.ofFields (wordOpc w) (wordLsbf w) (wordSa w) (wordWidth w) with
      | none => simp [encodingRow, hr, hm, hf] at h
      | some j =>
        simp [encodingRow, hr, hm, hf] at h
        exact ⟨row, List.mem_of_find?_eq_some hr, ho, hm, by rw [h]⟩
    · simp [encodingRow, hr, hm] at h

/-- A word that decodes is the encoding of a well-formed command. -/
theorem encode_of_decode {w : Word} {i : Instr} (h : decode w = .command i) : i.wf = true ∧ encode i = w := by
  obtain ⟨row, hr, ho, hm, hf⟩ := decode_command h
  obtain ⟨hmask, hclear, -, hpat, -⟩ := encodingTable_rows row hr
  have hres : w &&& 0xFF00FC00 = 0 := by rw [← hmask, ← BitVec.and_assoc, hm, hclear]
  have hl : (wordLsbf w && wordLsbf row.mask) = false := by rw [← wordLsbf_and, hm, hpat, wordLsbf_assemble]
  have ha : (wordSa w && wordSa row.mask) = false := by rw [← wordSa_and, hm, hpat, wordSa_assemble]
  have hw : wordWidth w &&& wordWidth row.mask = 0 := by rw [← wordWidth_and, hm, hpat, wordWidth_assemble]
  obtain ⟨hwf, hopc, hlsbf, hsa, hwidth⟩ := ofFields_row hr (ho ▸ hf)
  refine ⟨hwf, encode_eq_of_fields hres (hopc.trans ho) ?_ ?_ ?_⟩
  · rw [hlsbf]; revert hl; cases wordLsbf w <;> simp
  · rw [hsa]; revert ha; cases wordSa w <;> simp
  · rw [hwidth]
    calc wordWidth w &&& ~~~wordWidth row.mask
        = (wordWidth w &&& wordWidth row.mask) ||| (wordWidth w &&& ~~~wordWidth row.mask) := by rw [hw]; simp
      _ = wordWidth w := by ext; simp; grind

/-- The OPC of every command has a row. -/
theorem exists_row (i : Instr) : ∃ row ∈ encodingTable, row.opc = i.opcode := by
  cases i <;> simp [encodingTable, Instr.opcode]

/-- Decoding the encoding of a well-formed command gives it back. -/
theorem decode_encode {i : Instr} (h : i.wf = true) : decode (encode i) = .command i := by
  obtain ⟨row, hmem, ho⟩ := exists_row i
  obtain ⟨-, -, hopc, hpat, hr⟩ := encodingTable_rows row hmem
  have hf := ofFields_self i h
  obtain ⟨-, -, hl, ha, hw⟩ := ofFields_row hmem (ho ▸ hf)
  have hm : encode i &&& row.mask = row.pattern := by
    rw [encode, assemble_and, ← ho, hopc, hl, ha, hw, BitVec.and_assoc, hpat]
    simp [Bool.and_assoc]
  have hw : wordWidth (encode i) = BitVec.ofNat 8 i.width := wordWidth_assemble ..
  obtain ⟨ho', hl', ha', -⟩ := encode_fields h
  simp only [decode, ho', hl', ha', hw, ← ho, hr, hm, BEq.rfl, if_true]
  rw [ho, hf]
end Sys2Proof
end

section
/-! The issue of a word as a relation between states (60_exceptions R242), with its frame and the command it accepts. -/
namespace Sys2Proof.Machine

/-- The codes that an issue reports: not NONE and not the two reserved ones (60_exceptions R241, R249). -/
def ErrCode.raised (c : ErrCode) : Prop := c ≠ .none ∧ c ≠ .extSource ∧ c ≠ .execError

theorem decodeErrCode_raised (e : DecodeError) : (decodeErrCode e).raised := by
  cases e <;> simp [decodeErrCode, ErrCode.raised]

/-- Every check of a command reports a code that is raised. -/
theorem commandChecks_raised {i : Instr} {cfg : Config} {o : OpSet} {c : Check} (h : c ∈ commandChecks i cfg o) :
    c.code.raised := by
  have hcode : c.code = .cfgSeedAbsent ∨ c.code = .cfgParam ∨ c.code = .cfgRange := by
    cases i <;>
      simp only [commandChecks, packChecks, seededChecks, defaultSeedChecks, lfsrChecks, rankChecks, dftChecks, bmChecks,
        lincompChecks, List.mem_cons, List.not_mem_nil, or_false] at h <;>
      rcases h with rfl | rfl | rfl | rfl <;> simp
  rcases hcode with h | h | h <;> simp [ErrCode.raised, h]

/-- What the performed issue of the word `w` turns `s` into (60_exceptions R242). -/
inductive IssueEffect (w : Word) (s : State) : State → Prop where
  | error {code : ErrCode} (info : Octet) (hcode : code.raised) : IssueEffect w s ((s.prepare w).fail code info)
  | insufficient : IssueEffect w s (s.prepare w).insufficient
  | ended : IssueEffect w s (s.prepare w).endAtIssue
  | accepted {i : Instr} (hi : i ≠ .nop) (hwf : i.wf = true) (hw : encode i = w)
      (hchecks : firstFailure (commandChecks i s.cfg (OpSet.latch s.regs w)) = none)
      (hshort : commandShort i (OpSet.latch s.regs w) = false) : IssueEffect w s (s.prepare w).accept

/-- With no command in flight a write to CMD goes on, with the issue of the word. -/
theorem writeCmd_idle {s : State} (h : s.busy = false) (w : Word) : ∃ t, writeCmd w s = .next t ∧ IssueEffect w s t := by
  rcases writeCmd_cases w s with ⟨hb, -⟩ | ⟨i, -, hd, he⟩ | ⟨e, -, -, he⟩
  · rw [h] at hb; cases hb
  · obtain ⟨hwf, rfl⟩ := encode_of_decode hd
    rw [he]
    by_cases hi : i = .nop
    · subst hi
      exact ⟨_, exec_nop s, .ended⟩
    · rw [exec_idle h i hi]
      rcases issue_cases i (commandChecks i) (commandShort i) s with ⟨c, hc, ho⟩ | ⟨-, -, ho⟩ | ⟨hc, hs, ho⟩
      · exact ⟨_, ho, .error _ (commandChecks_raised (firstFailure_some hc).1)⟩
      · exact ⟨_, ho, .insufficient⟩
      · exact ⟨_, ho, .accepted hi hwf rfl hc hs⟩
  · exact ⟨_, he, .error _ (decodeErrCode_raised e)⟩

/-- The frame of an issue: OP is latched, the results are cleared, OVR is kept, the command ends at once or is in
flight with a clear status, and nothing else changes (10_state R36, R50). -/
theorem IssueEffect.frame {w : Word} {s t : State} (h : IssueEffect w s t) :
    t = { s with status := t.status, res := {}, stateLo := 0, stateHi := 0, elapsed := 0,
                 op := OpSet.latch s.regs w, flight := t.flight } ∧
      t.status.ovr = s.status.ovr ∧
      ((t.flight = false ∧ t.status.done = true) ∨
       (t.flight = true ∧ t.status = { done := false, err := false, insuff := false, ovr := s.status.ovr,
                                       errCode := .none, errInfo := 0 })) := by
  cases h with
  | accepted => exact ⟨rfl, rfl, .inr ⟨rfl, rfl⟩⟩
  | _ => exact ⟨rfl, rfl, .inl ⟨rfl, rfl⟩⟩

/-- OP of an issued well-formed command holds the command for the engine (10_state R51). -/
theorem engineCommand_latch {i : Instr} (hwf : i.wf = true) (hi : i ≠ .nop) (r : OperandRegs) :
    (OpSet.latch r (encode i)).engineCommand = some i := by
  have hfields : Instr.ofFields (wordOpc (encode i)) (wordLsbf (encode i)) (wordSa (encode i)) (wordWidth (encode i)) =
      some i := by
    rw [encode, wordOpc_assemble, wordLsbf_assemble, wordSa_assemble, wordWidth_assemble, ofFields_self i hwf]
  simp only [OpSet.engineCommand, OpSet.latch, hfields]

theorem accept_inFlight {i : Instr} (hwf : i.wf = true) (hi : i ≠ .nop) (s : State) :
    (s.prepare (encode i)).accept.inFlight = some i := engineCommand_latch hwf hi s.regs

end Sys2Proof.Machine
end

section
/-! One step as a relation between states, each case with the input that the step takes: what every invariant and every
frame of a register is read off from. -/

namespace Sys2Proof.Machine

/-- `s` with other host lists: the inputs to come, the answers given and the turns left (log entries 1, 2 and 11). -/
@[simps] def State.withHost (s : State) (inputs : List Input) (responses : List Response) (turns : List Agent) : State :=
  { s with inputs := inputs, responses := responses, turns := turns }

theorem State.takeTurn_eq (s : State) (rest : List Input) :
    { s.takeTurn with inputs := rest } = s.withHost rest s.responses s.takeTurn.turns := by
  unfold State.takeTurn; split <;> rfl

theorem State.takeTurn_eq_withHost (s : State) : s.takeTurn = s.withHost s.inputs s.responses s.takeTurn.turns := by
  unfold State.takeTurn; split <;> rfl

/-- An access that is refused while a command is in flight: a write to CMD, a read or a write of a window (10_state
R39). -/
def isGuarded (cfg : Config) (e : Input) : Prop :=
  (∃ v, e = hostWrite cfg 0x010 v) ∨
    ∃ sp j, windowHolds sp j ∧
      (e = hostRead cfg (windowOffset sp j) ∨ ∃ v, e = hostWrite cfg (windowOffset sp j) v)

/-- What one step turns `s` into, and what the step was. -/
inductive StepEffect (s : State) : State → Prop where
  /-- Idling, or an access that is only answered. -/
  | quiet (ins : List Input) (rs : List Response) (ts : List Agent) : StepEffect s (s.withHost ins rs ts)
  /-- A write of a word of a window. -/
  | windowWrite (ins : List Input) (rs : List Response) (ts : List Agent) {sp : Space} {j : Nat} {v : Word}
      (hbusy : s.busy = false) (hword : windowHolds sp j) (hcap : 32 * j < capacityOf s.cfg sp)
      (hnext : s.nextInput = some (hostWrite s.cfg (windowOffset sp j) v)) :
      StepEffect s ((s.withHost ins rs ts).setMem sp ((s.mem sp).writeSeq (32 * j) (bitsOfWord v)))
  /-- A write of an operand register. -/
  | operandWrite (ins : List Input) (rs : List Response) (ts : List Agent) {r : OperandReg} {v : Word}
      (hnext : s.nextInput = some (hostWrite s.cfg (operandOffset r) v)) :
      StepEffect s ((s.withHost ins rs ts).writeOperand r v)
  /-- A write of CTRL that is no reset. -/
  | ctrlWrite (ins : List Input) (rs : List Response) (ts : List Agent) {v : Word}
      (hnext : s.nextInput = some (hostWrite s.cfg 0x008 v)) :
      StepEffect s { s.withHost ins rs ts with irqEn := v.getLsbD 0 }
  /-- A write of STATUS. -/
  | statusWrite (ins : List Input) (rs : List Response) (ts : List Agent) {v : Word}
      (hnext : s.nextInput = some (hostWrite s.cfg 0x00C v)) :
      StepEffect s ((s.withHost ins rs ts).writeStatus v)
  /-- A refused access. -/
  | refused (ins : List Input) (rs : List Response) (ts : List Agent) {e : Input} (hbusy : s.busy = true)
      (hnext : s.nextInput = some e) (hguarded : isGuarded s.cfg e) : StepEffect s (s.withHost ins rs ts).refuse
  /-- A reset: the registers are cleared, and the memories lose marks at most. -/
  | reset (ins : List Input) (rs : List Response) (ts : List Agent) {e : Input} {m n : Memory}
      (hnext : s.nextInput = some e) (hreset : isReset s.cfg e) (hbit : m.Sublist s.bitmem)
      (hpoly : n.Sublist s.polymem) :
      StepEffect s { s.withHost ins rs ts with bitmem := m, polymem := n }.clearRegisters
  /-- An issue, which is a write of CMD with no command in flight. -/
  | issue (ins : List Input) (rs : List Response) (ts : List Agent) {w : Word} {t : State} (hbusy : s.busy = false)
      (hnext : s.nextInput = some (hostWrite s.cfg 0x010 w)) (hissue : IssueEffect w (s.withHost ins rs ts) t) :
      StepEffect s t
  /-- A completion of the command in flight. -/
  | completion (ts : List Agent) {i : Instr} {e : Effects} (hflight : s.inFlight = some i)
      (hnext : s.nextInput = none)
      (hbit : e.bitmem = s.bitmem ∨
        ∃ bs : List Bool, bs.length ≤ writtenBits i s.op ∧ e.bitmem = s.bitmem.writeSeq s.op.dst.toNat bs)
      (hpoly : e.polymem = s.polymem ∨
        (i = .bm ∧ ∃ bs : List Bool, bs.length = s.op.len.toNat + 1 ∧ e.polymem = s.polymem.writeSeq 0 bs)) :
      StepEffect s ((s.withHost s.inputs s.responses ts).complete e)

/-- An abort leaves marks out of both memories and adds none (70_reset R273). -/
theorem State.abort_sublist (s : State) :
    s.abort.bitmem.Sublist s.bitmem ∧ s.abort.polymem.Sublist s.polymem := by
  unfold State.abort
  split
  · exact ⟨List.filter_sublist, List.filter_sublist⟩
  · exact ⟨List.Sublist.refl _, List.Sublist.refl _⟩

theorem State.softReset_eq (s : State) :
    s.softReset = { s with bitmem := s.abort.bitmem, polymem := s.abort.polymem }.clearRegisters := by
  unfold State.softReset State.abort; split <;> rfl

/-- A read of a window that goes on is refused or only answered. -/
theorem readWindow_next {sp : Space} {off j : Nat} {s t : State} (h : readWindow sp off j s = .next t) :
    (s.busy = true ∧ ∃ r, t = (s.respond r).refuse) ∨ ∃ r, t = s.respond r := by
  unfold readWindow at h
  split at h
  · next hb => cases h; exact .inl ⟨hb, _, rfl⟩
  · split at h
    · cases h; exact .inr ⟨_, rfl⟩
    · rcases withBits_cases sp (32 * j) 32 s _ with ⟨bs, -, he⟩ | ⟨a, -, he, -, -⟩
      · rw [he] at h; cases h; exact .inr ⟨_, rfl⟩
      · rw [he] at h; cases h

/-- A write of a window is refused, only answered, or writes its word. -/
theorem writeWindow_cases (sp : Space) (off j : Nat) (v : Word) (s : State) :
    (s.busy = true ∧ writeWindow sp off j v s = (s.respond (.written off)).refuse) ∨
    writeWindow sp off j v s = s.respond (.written off) ∨
    (s.busy = false ∧ 32 * j < capacityOf s.cfg sp ∧
      writeWindow sp off j v s = (s.respond (.written off)).setMem sp ((s.mem sp).writeSeq (32 * j) (bitsOfWord v))) := by
  unfold writeWindow
  split
  · next hb => exact .inl ⟨hb, rfl⟩
  · next hb =>
    split
    · exact .inr (.inl rfl)
    · next hcap => exact .inr (.inr ⟨Bool.eq_false_of_not_eq_true hb, by omega, by cases sp <;> rfl⟩)

/-- A write of CTRL either clears or sets IRQ_EN, or is the soft reset (10_state R33). -/
theorem writeCtrl_cases (v : Word) (s : State) :
    (v.getLsbD 1 = false ∧ s.writeCtrl v = { s with irqEn := v.getLsbD 0 }) ∨
    (v.getLsbD 1 = true ∧ s.writeCtrl v = s.softReset) := by
  unfold State.writeCtrl
  cases h : v.getLsbD 1 with
  | false => exact .inl ⟨rfl, rfl⟩
  | true => exact .inr ⟨rfl, rfl⟩

/-- The host's input, as an effect of the step that takes it. -/
theorem inputStep_effect {s t : State} {e : Input} {ins : List Input} {rs : List Response} {ts : List Agent}
    (hnext : s.nextInput = some e) (h : inputStep e (s.withHost ins rs ts) = .next t) : StepEffect s t := by
  rcases inputStep_cases e (s.withHost ins rs ts) with ⟨he, ho⟩ | ⟨r, ho⟩ | ⟨v, rfl, ho⟩ | ⟨v, rfl, ho⟩ | ⟨v, rfl, ho⟩ |
    ⟨r, v, rfl, ho⟩ | ⟨sp, j, hw, ⟨rfl, ho⟩ | ⟨v, rfl, ho⟩⟩ <;> rw [ho] at h
  · cases h
    exact .reset ins rs ts hnext (.inl he) (List.nil_sublist _) (List.nil_sublist _)
  · cases h
    exact .quiet ins (r :: rs) ts
  · cases h
    rcases writeCtrl_cases v ((s.withHost ins rs ts).respond (.written 0x008)) with ⟨-, hc⟩ | ⟨hv, hc⟩ <;> rw [hc]
    · exact .ctrlWrite ins (.written 0x008 :: rs) ts hnext
    · rw [State.softReset_eq]
      have hsub := State.abort_sublist ((s.withHost ins rs ts).respond (.written 0x008))
      exact .reset ins (.written 0x008 :: rs) ts hnext (.inr ⟨v, hv, rfl⟩) hsub.1 hsub.2
  · cases h
    exact .statusWrite ins (.written 0x00C :: rs) ts hnext
  · rcases writeCmd_cases v ((s.withHost ins rs ts).respond (.written 0x010)) with ⟨hb, hc⟩ | hidle
    · rw [hc] at h; cases h
      exact .refused ins (.written 0x010 :: rs) ts hb hnext (.inl ⟨v, rfl⟩)
    · have hb : s.busy = false := hidle.elim (fun ⟨_, hb, _⟩ => hb) (fun ⟨_, hb, _⟩ => hb)
      obtain ⟨u, hu, heff⟩ := writeCmd_idle (s := (s.withHost ins rs ts).respond (.written 0x010)) hb v
      rw [hu] at h; cases h
      exact .issue ins (.written 0x010 :: rs) ts hb hnext heff
  · cases h
    exact .operandWrite ins (.written _ :: rs) ts hnext
  · rcases readWindow_next h with ⟨hb, r, rfl⟩ | ⟨r, rfl⟩
    · exact .refused ins (r :: rs) ts hb hnext (.inr ⟨sp, j, hw, .inl rfl⟩)
    · exact .quiet ins (r :: rs) ts
  · cases h
    rcases writeWindow_cases sp (windowOffset sp j) j v (s.withHost ins rs ts) with ⟨hb, hc⟩ | hc | ⟨hb, hcap, hc⟩ <;>
      rw [hc]
    · exact .refused ins (.written _ :: rs) ts hb hnext (.inr ⟨sp, j, hw, .inr ⟨v, rfl⟩⟩)
    · exact .quiet ins (.written _ :: rs) ts
    · exact .windowWrite ins (.written _ :: rs) ts hb hw hcap hnext

/-- Every step that answers a next state has one of the effects of `StepEffect`. -/
theorem step_effect {s t : State} (h : step s = .next t) : StepEffect s t := by
  rcases step_cases s with ⟨-, -, ho⟩ | ⟨e, rest, -, hnext, ho⟩ | ⟨i, hi, hnext, ho⟩ <;> rw [ho] at h
  · cases h
    exact .quiet s.inputs s.responses s.turns
  · rw [State.takeTurn_eq] at h
    exact inputStep_effect hnext h
  · rw [State.takeTurn_eq_withHost] at h
    have hb : (s.withHost s.inputs s.responses s.takeTurn.turns).busy = true := State.busy_of_inFlight hi
    rcases exec_completion hb i (State.inFlight_ne_nop hi) with ⟨e, he, hbit, hpoly⟩ | ⟨sp, a, he, -, -⟩ <;> rw [he] at h
    · cases h
      exact .completion _ hi hnext hbit hpoly
    · cases h

end Sys2Proof.Machine
end

section
/-! Every step keeps the invariant, by its three parts: the memories, STATUS, and the command in flight. -/

namespace Sys2Proof.Machine

/-- The parameters are legal and the memories canonical, inside their capacity (20_memory R70). -/
structure State.MemoriesInv (s : State) : Prop where
  cfg_valid : s.cfg.valid
  bitmem_wf : s.bitmem.wf
  polymem_wf : s.polymem.wf
  bitmem_bound : ∀ c ∈ s.bitmem, c.1 < s.cfg.bitmemBits
  polymem_bound : ∀ c ∈ s.polymem, c.1 < s.cfg.polyBits

/-- The error fields of STATUS agree (60_exceptions R241, R249). -/
structure Status.Agrees (f : Status) : Prop where
  err_code : f.err = true ↔ f.errCode ≠ .none
  err_info : f.err = false → f.errInfo = 0
  no_reserved_code : f.errCode ≠ .extSource ∧ f.errCode ≠ .execError
  one_ending : ¬(f.err = true ∧ f.insuff = true)

/-- The flag is set only over a command that has passed its checks, with no ending or result to see (10_state R35,
R36). -/
structure State.FlightInv (s : State) : Prop where
  flight_busy : s.flight = true → s.busy = true
  busy_clean : s.busy = true → s.status.done = false ∧ s.status.err = false ∧ s.status.insuff = false ∧ s.res = {} ∧
    s.stateLo = 0 ∧ s.stateHi = 0 ∧ s.elapsed = 0
  busy_checked : ∀ i, s.inFlight = some i →
    firstFailure (commandChecks i s.cfg s.op) = none ∧ commandShort i s.op = false

theorem State.inv_iff (s : State) : s.Inv ↔ s.MemoriesInv ∧ s.status.Agrees ∧ s.FlightInv := by
  constructor
  · intro h
    exact ⟨⟨h.cfg_valid, h.bitmem_wf, h.polymem_wf, h.bitmem_bound, h.polymem_bound⟩,
      ⟨h.err_code, h.err_info, h.no_reserved_code, h.one_ending⟩, ⟨h.flight_busy, h.busy_clean, h.busy_checked⟩⟩
  · rintro ⟨hm, hs, hf⟩
    exact { hm, hs, hf with }

/-! ### The memories -/

theorem Config.bitmemBits_aligned {cfg : Config} (h : cfg.valid) (sp : Space) : capacityOf cfg sp % 32 = 0 := by
  cases sp with
  | bitmem => exact h.1.1
  | polymem => exact Nat.mul_mod_right ..

/-- A write of a whole word of a window stays inside the capacity. -/
theorem word_le_capacity {cfg : Config} (h : cfg.valid) {sp : Space} {j : Nat} {v : Word}
    (hj : 32 * j < capacityOf cfg sp) : 32 * j + (bitsOfWord v).length ≤ capacityOf cfg sp := by
  have := Config.bitmemBits_aligned h sp
  have hlen : (bitsOfWord v).length = 32 := by simp [bitsOfWord]
  omega

/-- Other memories that are canonical and inside their capacity keep the memories' invariant. -/
theorem State.MemoriesInv.of_memories {s t : State} (h : s.MemoriesInv) (hc : t.cfg = s.cfg) (hb : t.bitmem.wf)
    (hp : t.polymem.wf) (hbb : ∀ c ∈ t.bitmem, c.1 < s.cfg.bitmemBits) (hpb : ∀ c ∈ t.polymem, c.1 < s.cfg.polyBits) :
    t.MemoriesInv :=
  ⟨hc ▸ h.cfg_valid, hb, hp, hc ▸ hbb, hc ▸ hpb⟩

theorem State.MemoriesInv.congr {s t : State} (h : s.MemoriesInv) (hc : t.cfg = s.cfg) (hb : t.bitmem = s.bitmem)
    (hp : t.polymem = s.polymem) : t.MemoriesInv :=
  h.of_memories hc (hb ▸ h.bitmem_wf) (hp ▸ h.polymem_wf) (hb ▸ h.bitmem_bound) (hp ▸ h.polymem_bound)

theorem State.MemoriesInv.setMem {s : State} (h : s.MemoriesInv) (sp : Space) {m : Memory} (hm : m.wf)
    (hb : ∀ c ∈ m, c.1 < capacityOf s.cfg sp) : (s.setMem sp m).MemoriesInv := by
  cases sp with
  | bitmem => exact h.of_memories rfl hm h.polymem_wf hb h.polymem_bound
  | polymem => exact h.of_memories rfl h.bitmem_wf hm h.bitmem_bound hb

theorem State.MemoriesInv.mem_bound {s : State} (h : s.MemoriesInv) (sp : Space) :
    ∀ c ∈ s.mem sp, c.1 < capacityOf s.cfg sp := by
  cases sp with
  | bitmem => exact h.bitmem_bound
  | polymem => exact h.polymem_bound

theorem State.MemoriesInv.mem_wf {s : State} (h : s.MemoriesInv) (sp : Space) : (s.mem sp).wf := by
  cases sp with
  | bitmem => exact h.bitmem_wf
  | polymem => exact h.polymem_wf

/-- No check of a list fails exactly when none is the first to fail. -/
theorem firstFailure_eq_none {cs : List Check} : firstFailure cs = none ↔ ∀ c ∈ cs, ¬c.fails = true :=
  List.find?_eq_none

/-- The destination region of a command that has passed its checks is empty or inside BITMEM (60_exceptions R242). -/
theorem writtenBits_in_bitmem {i : Instr} {cfg : Config} {o : OpSet} (h : firstFailure (commandChecks i cfg o) = none) :
    writtenBits i o = 0 ∨ o.dst.toNat + writtenBits i o ≤ cfg.bitmemBits := by
  rw [firstFailure_eq_none] at h
  by_cases hzero : writtenBits i o = 0
  · exact .inl hzero
  · have hmem : dstInRange cfg o (writtenBits i o) ∈ commandChecks i cfg o := by
      cases i with
      | nop | rank | dft | bm | lincomp => exact absurd rfl hzero
      | _ => simp [commandChecks, packChecks, seededChecks, defaultSeedChecks, lfsrChecks, writtenBits]
    exact .inr (by simpa using h _ hmem)

/-- The polynomial that BM writes, LEN + 1 coefficients, is inside POLYMEM (20_memory R70, 45 R218). -/
theorem bm_in_polymem {cfg : Config} {o : OpSet} (h : firstFailure (commandChecks .bm cfg o) = none) :
    o.len.toNat + 1 ≤ cfg.polyBits := by
  have hlen : o.len.toNat ≤ cfg.lcMMax := by
    simpa using firstFailure_eq_none.1 h (atMost o.len.toNat cfg.lcMMax 0x15) (by simp [commandChecks, bmChecks])
  unfold Config.polyBits
  omega

/-- A region write that is empty or below a capacity keeps the memory below it. -/
theorem Memory.writeSeq_bound_of_le {m : Memory} {cap a n : Nat} {bs : List Bool} (h : ∀ c ∈ m, c.1 < cap)
    (hlen : bs.length ≤ n) (hn : n = 0 ∨ a + n ≤ cap) : ∀ c ∈ m.writeSeq a bs, c.1 < cap := by
  rcases hn with rfl | hn
  · obtain rfl : bs = [] := List.eq_nil_of_length_eq_zero (by omega)
    intro c hc
    rcases List.mem_append.1 hc with hc | hc <;> exact h c (List.mem_filter.1 hc).1
  · exact Memory.writeSeq_bound h (by omega)

/-- Every step keeps the memories' part of the invariant. -/
theorem StepEffect.memoriesInv {s t : State} (h : StepEffect s t) (hinv : s.Inv) : t.MemoriesInv := by
  obtain ⟨hm, -, hf⟩ := s.inv_iff.1 hinv
  cases h with
  | windowWrite ins rs ts hbusy hword hcap hnext =>
    have hw : (s.withHost ins rs ts).MemoriesInv := hm.congr rfl rfl rfl
    exact hw.setMem _ (Memory.writeSeq_wf (hm.mem_wf _) ..)
      (Memory.writeSeq_bound (hm.mem_bound _) (word_le_capacity hm.cfg_valid hcap))
  | reset ins rs ts hnext hreset hbit hpoly =>
    exact hm.of_memories rfl (hm.bitmem_wf.sublist hbit) (hm.polymem_wf.sublist hpoly)
      (fun c hc => hm.bitmem_bound c (hbit.subset hc)) (fun c hc => hm.polymem_bound c (hpoly.subset hc))
  | issue ins rs ts hbusy hnext hissue =>
    have heq := hissue.frame.1
    exact hm.congr (by rw [heq]; rfl) (by rw [heq]; rfl) (by rw [heq]; rfl)
  | @completion ts i e hflight hnext hbit hpoly =>
    obtain ⟨hchecks, -⟩ := hf.busy_checked _ hflight
    have hb : e.bitmem.wf ∧ ∀ c ∈ e.bitmem, c.1 < s.cfg.bitmemBits := by
      rcases hbit with heq | ⟨bs, hlen, heq⟩ <;> rw [heq]
      · exact ⟨hm.bitmem_wf, hm.bitmem_bound⟩
      · exact ⟨Memory.writeSeq_wf hm.bitmem_wf ..,
          Memory.writeSeq_bound_of_le hm.bitmem_bound hlen (writtenBits_in_bitmem hchecks)⟩
    have hp : e.polymem.wf ∧ ∀ c ∈ e.polymem, c.1 < s.cfg.polyBits := by
      rcases hpoly with heq | ⟨rfl, bs, hlen, heq⟩ <;> rw [heq]
      · exact ⟨hm.polymem_wf, hm.polymem_bound⟩
      · exact ⟨Memory.writeSeq_wf hm.polymem_wf ..,
          Memory.writeSeq_bound hm.polymem_bound (by have := bm_in_polymem hchecks; omega)⟩
    exact hm.of_memories rfl hb.1 hp.1 hb.2 hp.2
  | _ => exact hm.congr rfl rfl rfl

/-! ### STATUS -/

theorem Status.Agrees.of_no_error {f : Status} (he : f.err = false) (hc : f.errCode = .none) (hi : f.errInfo = 0) :
    f.Agrees := by
  constructor <;> simp [he, hc, hi]

/-- A STATUS write clears ERR, ERRCODE and ERRINFO together, if bit 2 is set, or keeps all three (10_state R34). -/
theorem Status.acknowledge_error (v : Word) (f : Status) :
    (v.getLsbD 2 = true ∧ (f.acknowledge v).err = false ∧ (f.acknowledge v).errCode = .none ∧
      (f.acknowledge v).errInfo = 0) ∨
    ((f.acknowledge v).err = f.err ∧ (f.acknowledge v).errCode = f.errCode ∧ (f.acknowledge v).errInfo = f.errInfo) := by
  unfold Status.acknowledge
  cases v.getLsbD 2 with
  | true => exact .inl ⟨rfl, Bool.and_false _, rfl, rfl⟩
  | false => exact .inr ⟨Bool.and_true _, rfl, rfl⟩

/-- A STATUS write keeps the error fields in agreement (60_exceptions R246). -/
theorem Status.Agrees.acknowledge {f : Status} (h : f.Agrees) (v : Word) : (f.acknowledge v).Agrees := by
  rcases f.acknowledge_error v with ⟨-, herr, hcode, hinfo⟩ | ⟨herr, hcode, hinfo⟩
  · exact .of_no_error herr hcode hinfo
  · refine ⟨?_, ?_, ?_, ?_⟩
    · rw [herr, hcode]; exact h.err_code
    · rw [herr, hinfo]; exact h.err_info
    · rw [hcode]; exact h.no_reserved_code
    · rintro ⟨he, hi⟩
      exact h.one_ending ⟨herr ▸ he, (Bool.and_eq_true_iff.1 hi).1⟩

/-- An issue leaves the error fields in agreement, whatever they were. -/
theorem IssueEffect.agrees {w : Word} {s t : State} (h : IssueEffect w s t) : t.status.Agrees := by
  cases h with
  | error info hcode =>
    obtain ⟨hn, hr⟩ := hcode
    exact ⟨iff_of_true rfl hn, nofun, hr, nofun⟩
  | _ => exact .of_no_error rfl rfl rfl

/-- Every step keeps the error fields in agreement. -/
theorem StepEffect.agrees {s t : State} (h : StepEffect s t) (hs : s.status.Agrees) : t.status.Agrees := by
  cases h with
  | statusWrite => exact hs.acknowledge _
  | windowWrite => simpa using hs
  | reset => exact .of_no_error rfl rfl rfl
  | issue _ _ _ _ _ hissue => exact hissue.agrees
  | _ => exact ⟨hs.err_code, hs.err_info, hs.no_reserved_code, hs.one_ending⟩

/-! ### The command in flight -/

theorem State.FlightInv.of_flight {s : State} (h : s.flight = false) : s.FlightInv := by
  have hb := State.busy_false_of_flight h
  refine ⟨fun hf => ?_, fun hf => ?_, fun i hi => ?_⟩
  · rw [h] at hf; cases hf
  · rw [hb] at hf; cases hf
  · rw [State.inFlight_none_of_flight h] at hi; cases hi

/-- A step that keeps the command in flight and the results, and raises none of DONE, ERR and INSUFF, keeps the
invariant of the command in flight. -/
theorem State.FlightInv.of_same {s t : State} (h : s.FlightInv) (hf : t.flight = s.flight) (ho : t.op = s.op)
    (hc : t.cfg = s.cfg)
    (hres : t.res = s.res ∧ t.stateLo = s.stateLo ∧ t.stateHi = s.stateHi ∧ t.elapsed = s.elapsed)
    (hdone : s.status.done = false → t.status.done = false) (herr : s.status.err = false → t.status.err = false)
    (hinsuff : s.status.insuff = false → t.status.insuff = false) : t.FlightInv := by
  obtain ⟨hr, hlo, hhi, he⟩ := hres
  refine ⟨?_, ?_, ?_⟩
  · rw [hf, State.busy_congr hf ho]; exact h.flight_busy
  · rw [State.busy_congr hf ho, hr, hlo, hhi, he]
    intro hb
    obtain ⟨hd, herr', hi, hrest⟩ := h.busy_clean hb
    exact ⟨hdone hd, herr herr', hinsuff hi, hrest⟩
  · rw [State.inFlight_congr hf ho, hc, ho]; exact h.busy_checked

/-- An issue either ends at once or leaves a checked command in flight with nothing to see. -/
theorem IssueEffect.flightInv {w : Word} {s t : State} (h : IssueEffect w s t) : t.FlightInv := by
  cases h with
  | @accepted i hi hwf hw hchecks hshort =>
    subst hw
    have hflight := accept_inFlight hwf hi s
    refine ⟨fun _ => State.busy_of_inFlight hflight, fun _ => ⟨rfl, rfl, rfl, rfl, rfl, rfl, rfl⟩, fun j hj => ?_⟩
    obtain rfl : i = j := Option.some.inj (hflight.symm.trans hj)
    exact ⟨hchecks, hshort⟩
  | _ => exact .of_flight rfl

/-- Every step keeps the invariant of the command in flight. -/
theorem StepEffect.flightInv {s t : State} (h : StepEffect s t) (hs : s.FlightInv) : t.FlightInv := by
  cases h with
  | statusWrite =>
    refine hs.of_same rfl rfl rfl ⟨rfl, rfl, rfl, rfl⟩ ?_ ?_ ?_ <;> intro hbit <;>
      simp [Status.acknowledge, hbit]
  | windowWrite => exact hs.of_same (by simp) (by simp) (by simp) (by simp) (by simp) (by simp) (by simp)
  | reset => exact .of_flight rfl
  | issue _ _ _ _ _ hissue => exact hissue.flightInv
  | completion => exact .of_flight rfl
  | _ => exact hs.of_same rfl rfl rfl ⟨rfl, rfl, rfl, rfl⟩ id id id

/-- A step with one of the effects of `StepEffect` keeps the invariant. -/
theorem StepEffect.inv {s t : State} (h : StepEffect s t) (hinv : s.Inv) : t.Inv := by
  obtain ⟨-, hs, hf⟩ := s.inv_iff.1 hinv
  exact t.inv_iff.2 ⟨h.memoriesInv hinv, h.agrees hs, h.flightInv hf⟩

end Sys2Proof.Machine

open Sys2Proof Sys2Proof.Machine

/-- Settles O60: by the effects a step can have, each part of the invariant in turn. -/
theorem stepKeepsTheInvariant : Obligations.StepKeepsTheInvariant := by
  unfold Obligations.StepKeepsTheInvariant
  intro s t hinv h
  exact (step_effect h).inv hinv

end

section
/-! Which steps change which register (10_state.md sections 2 and 4), and the interrupt output. -/

namespace Sys2Proof.Machine

/-- The step is a soft reset or a hardware reset. -/
def State.byReset (s : State) : Prop := ∃ e, s.nextInput = some e ∧ isReset s.cfg e

/-- The step is an issue: a write of CMD with no command in flight. -/
def State.byIssue (s : State) : Prop := s.busy = false ∧ ∃ w, s.nextInput = some (hostWrite s.cfg 0x010 w)

/-- The step is the completion of the command in flight. -/
def State.byCompletion (s : State) : Prop := s.busy = true ∧ s.nextInput = none

/-- The step is a STATUS write with the bit set. -/
def State.byStatus (s : State) (bit : Nat) : Prop :=
  ∃ v : Word, v.getLsbD bit = true ∧ s.nextInput = some (hostWrite s.cfg 0x00C v)

@[simp] theorem Status.setDone_err (f : Status) : f.setDone.err = f.err := rfl
@[simp] theorem Status.setDone_errCode (f : Status) : f.setDone.errCode = f.errCode := rfl
@[simp] theorem Status.setDone_errInfo (f : Status) : f.setDone.errInfo = f.errInfo := rfl

/-- A bit that a STATUS write changes is one that it names. -/
theorem Status.bit_of_cleared {f b : Bool} (h : (f && !b) ≠ f) : b = true := by
  cases b
  · exact absurd (Bool.and_true f) h
  · rfl

section
variable {s t : State} (h : StepEffect s t)
include h

theorem StepEffect.cfg_eq : t.cfg = s.cfg := by
  cases h with
  | windowWrite => simp
  | issue _ _ _ _ _ hissue => rw [hissue.frame.1]; rfl
  | _ => rfl

theorem StepEffect.regs_changed (r : OperandReg) (hne : t.regs.get r ≠ s.regs.get r) :
    s.byReset ∨ ∃ v, s.nextInput = some (hostWrite s.cfg (operandOffset r) v) := by
  cases h with
  | @operandWrite _ _ _ q v hnext =>
    by_cases hq : r = q
    · subst hq; exact .inr ⟨v, hnext⟩
    · exact absurd (OperandRegs.get_set_other _ _ hq) hne
  | reset _ _ _ hnext hreset => exact .inl ⟨_, hnext, hreset⟩
  | windowWrite => simp at hne
  | issue _ _ _ _ _ hissue => rw [hissue.frame.1] at hne; exact absurd rfl hne
  | _ => exact absurd rfl hne

theorem StepEffect.irqEn_changed (hne : t.irqEn ≠ s.irqEn) :
    s.byReset ∨ ∃ v, v.getLsbD 0 = t.irqEn ∧ s.nextInput = some (hostWrite s.cfg 0x008 v) := by
  cases h with
  | ctrlWrite _ _ _ hnext => exact .inr ⟨_, rfl, hnext⟩
  | reset _ _ _ hnext hreset => exact .inl ⟨_, hnext, hreset⟩
  | windowWrite => simp at hne
  | issue _ _ _ _ _ hissue => rw [hissue.frame.1] at hne; exact absurd rfl hne
  | _ => exact absurd rfl hne

theorem StepEffect.op_changed (hne : t.op ≠ s.op) : s.byReset ∨ s.byIssue := by
  cases h with
  | reset _ _ _ hnext hreset => exact .inl ⟨_, hnext, hreset⟩
  | issue _ _ _ hbusy hnext => exact .inr ⟨hbusy, _, hnext⟩
  | windowWrite => simp at hne
  | _ => exact absurd rfl hne

theorem StepEffect.results_changed
    (hne : t.res ≠ s.res ∨ t.stateLo ≠ s.stateLo ∨ t.stateHi ≠ s.stateHi ∨ t.elapsed ≠ s.elapsed) :
    s.byReset ∨ s.byIssue ∨ s.byCompletion := by
  cases h with
  | reset _ _ _ hnext hreset => exact .inl ⟨_, hnext, hreset⟩
  | issue _ _ _ hbusy hnext => exact .inr (.inl ⟨hbusy, _, hnext⟩)
  | completion _ hflight hnext => exact .inr (.inr ⟨State.busy_of_inFlight hflight, hnext⟩)
  | _ => simp at hne

theorem StepEffect.error_changed
    (hne : t.status.err ≠ s.status.err ∨ t.status.errCode ≠ s.status.errCode ∨ t.status.errInfo ≠ s.status.errInfo) :
    s.byReset ∨ s.byIssue ∨ s.byStatus 2 := by
  cases h with
  | reset _ _ _ hnext hreset => exact .inl ⟨_, hnext, hreset⟩
  | issue _ _ _ hbusy hnext => exact .inr (.inl ⟨hbusy, _, hnext⟩)
  | @statusWrite _ _ _ v hnext =>
    rcases s.status.acknowledge_error v with ⟨hv, -⟩ | ⟨herr, hcode, hinfo⟩
    · exact .inr (.inr ⟨v, hv, hnext⟩)
    · simp [herr, hcode, hinfo] at hne
  | _ => simp at hne

theorem StepEffect.insuff_changed (hne : t.status.insuff ≠ s.status.insuff) :
    s.byReset ∨ s.byIssue ∨ s.byStatus 3 := by
  cases h with
  | reset _ _ _ hnext hreset => exact .inl ⟨_, hnext, hreset⟩
  | issue _ _ _ hbusy hnext => exact .inr (.inl ⟨hbusy, _, hnext⟩)
  | statusWrite _ _ _ hnext => exact .inr (.inr ⟨_, Status.bit_of_cleared hne, hnext⟩)
  | windowWrite => simp at hne
  | _ => exact absurd rfl hne

theorem StepEffect.done_cleared (hs : s.status.done = true) (ht : t.status.done = false) :
    s.byReset ∨ s.byIssue ∨ s.byStatus 1 := by
  have hne : t.status.done ≠ s.status.done := by simp [hs, ht]
  cases h with
  | reset _ _ _ hnext hreset => exact .inl ⟨_, hnext, hreset⟩
  | issue _ _ _ hbusy hnext => exact .inr (.inl ⟨hbusy, _, hnext⟩)
  | statusWrite _ _ _ hnext => exact .inr (.inr ⟨_, Status.bit_of_cleared hne, hnext⟩)
  | completion => cases ht
  | windowWrite => simp at hne
  | _ => exact absurd rfl hne

theorem StepEffect.done_set (hs : s.status.done = false) (ht : t.status.done = true) :
    t.busy = false ∧ (s.byCompletion ∨ s.byIssue) := by
  have hne : t.status.done ≠ s.status.done := by simp [hs, ht]
  cases h with
  | issue _ _ _ hbusy hnext hissue =>
    refine ⟨State.busy_false_of_flight ?_, .inr ⟨hbusy, _, hnext⟩⟩
    rcases hissue.frame.2.2 with ⟨hf, -⟩ | ⟨-, hstatus⟩
    · exact hf
    · rw [hstatus] at ht; cases ht
  | completion _ hflight hnext => exact ⟨rfl, .inl ⟨State.busy_of_inFlight hflight, hnext⟩⟩
  | statusWrite =>
    have hkept : s.status.done = true := (Bool.and_eq_true_iff.1 ht).1
    rw [hs] at hkept; cases hkept
  | reset => cases ht
  | windowWrite => simp at hne
  | _ => exact absurd rfl hne

theorem StepEffect.busy_changed (hne : t.busy ≠ s.busy) : s.byReset ∨ s.byIssue ∨ s.byCompletion := by
  cases h with
  | reset _ _ _ hnext hreset => exact .inl ⟨_, hnext, hreset⟩
  | issue _ _ _ hbusy hnext => exact .inr (.inl ⟨hbusy, _, hnext⟩)
  | completion _ hflight hnext => exact .inr (.inr ⟨State.busy_of_inFlight hflight, hnext⟩)
  | windowWrite => exact absurd (State.busy_congr (by simp) (by simp)) hne
  | _ => exact absurd rfl hne

theorem StepEffect.ovr_set (hs : s.status.ovr = false) (ht : t.status.ovr = true) :
    s.busy = true ∧ ∃ e, s.nextInput = some e ∧ isGuarded s.cfg e := by
  have hne : t.status.ovr ≠ s.status.ovr := by simp [hs, ht]
  cases h with
  | refused _ _ _ hbusy hnext hguarded => exact ⟨hbusy, _, hnext, hguarded⟩
  | issue _ _ _ _ _ hissue => exact absurd hissue.frame.2.1 hne
  | statusWrite =>
    have hkept : s.status.ovr = true := (Bool.and_eq_true_iff.1 ht).1
    rw [hs] at hkept; cases hkept
  | reset => cases ht
  | windowWrite => simp at hne
  | _ => exact absurd rfl hne

theorem StepEffect.ovr_cleared (hs : s.status.ovr = true) (ht : t.status.ovr = false) :
    s.byReset ∨ s.byStatus 4 := by
  have hne : t.status.ovr ≠ s.status.ovr := by simp [hs, ht]
  cases h with
  | reset _ _ _ hnext hreset => exact .inl ⟨_, hnext, hreset⟩
  | statusWrite _ _ _ hnext => exact .inr ⟨_, Status.bit_of_cleared hne, hnext⟩
  | issue _ _ _ _ _ hissue => exact absurd hissue.frame.2.1 hne
  | refused => cases ht
  | windowWrite => simp at hne
  | _ => exact absurd rfl hne

theorem StepEffect.done_changed (hne : t.status.done ≠ s.status.done) :
    s.byReset ∨ s.byIssue ∨ s.byStatus 1 ∨ s.byCompletion := by
  cases hs : s.status.done with
  | true =>
    rcases h.done_cleared hs (by simpa [hs] using hne) with hr | hi | hb
    · exact .inl hr
    · exact .inr (.inl hi)
    · exact .inr (.inr (.inl hb))
  | false =>
    rcases (h.done_set hs (by simpa [hs] using hne)).2 with hc | hi
    · exact .inr (.inr (.inr hc))
    · exact .inr (.inl hi)

theorem StepEffect.ovr_changed (hne : t.status.ovr ≠ s.status.ovr) :
    s.byReset ∨ s.byStatus 4 ∨ (s.busy = true ∧ t.status.ovr = true) := by
  cases hs : s.status.ovr with
  | true =>
    rcases h.ovr_cleared hs (by simpa [hs] using hne) with hr | hb
    · exact .inl hr
    · exact .inr (.inl hb)
  | false =>
    have ht : t.status.ovr = true := by simpa [hs] using hne
    exact .inr (.inr ⟨(h.ovr_set hs ht).1, ht⟩)

end

/-- The three kinds of step that clear DONE, as the input that the step takes. -/
theorem done_clearing_input {s : State} (h : s.byReset ∨ s.byIssue ∨ s.byStatus 1) :
    ∃ e, s.nextInput = some e ∧
      (isReset s.cfg e ∨ (∃ v : Word, v.getLsbD 1 = true ∧ e = hostWrite s.cfg 0x00C v) ∨
        (s.busy = false ∧ ∃ w, e = hostWrite s.cfg 0x010 w)) := by
  rcases h with ⟨e, hn, hr⟩ | ⟨hb, w, hn⟩ | ⟨v, hv, hn⟩
  · exact ⟨e, hn, .inl hr⟩
  · exact ⟨_, hn, .inr (.inr ⟨hb, w, rfl⟩)⟩
  · exact ⟨_, hn, .inr (.inl ⟨v, hv, rfl⟩)⟩

end Sys2Proof.Machine

open Sys2Proof Sys2Proof.Machine

/-- Settles O57: one lemma per register about the effects a step can have. -/
theorem registersChangeOnlyAsNamed : Obligations.RegistersChangeOnlyAsNamed := by
  unfold Obligations.RegistersChangeOnlyAsNamed
  intro s t hstep
  have h := step_effect hstep
  refine ⟨h.cfg_eq, h.regs_changed, fun hne => ?_, h.op_changed, h.results_changed, h.error_changed, h.insuff_changed,
    h.done_changed, h.busy_changed, h.ovr_changed⟩
  rcases h.irqEn_changed hne with hr | ⟨v, -, hn⟩
  · exact .inl hr
  · exact .inr ⟨v, hn⟩

/-- Settles O53: only a refused access sets OVR, only a reset or a STATUS write with bit 4 set clears it. -/
theorem overrunIsSetAndClearedOnlyAsNamed : Obligations.OverrunIsSetAndClearedOnlyAsNamed := by
  unfold Obligations.OverrunIsSetAndClearedOnlyAsNamed
  intro s t hstep
  have h := step_effect hstep
  refine ⟨h.ovr_set, fun hs ht => ?_⟩
  rcases h.ovr_cleared hs ht with ⟨e, hn, hr⟩ | ⟨v, hv, hn⟩
  · exact ⟨e, hn, .inl hr⟩
  · exact ⟨_, hn, .inr ⟨v, hv, rfl⟩⟩

/-- Settles O54: DONE falls and rises only in the steps named. -/
theorem doneIsSetAndClearedOnlyAsNamed : Obligations.DoneIsSetAndClearedOnlyAsNamed := by
  unfold Obligations.DoneIsSetAndClearedOnlyAsNamed
  intro s t hstep
  have h := step_effect hstep
  exact ⟨fun hs ht => done_clearing_input (h.done_cleared hs ht), h.done_set⟩

/-- Settles O55: IRQ falls with DONE or, where DONE stays, with IRQ_EN. -/
theorem interruptOutput : Obligations.InterruptOutput := by
  unfold Obligations.InterruptOutput
  refine ⟨fun s => Bool.and_eq_true_iff, fun s t hstep hs ht => ?_⟩
  have h := step_effect hstep
  obtain ⟨hen, hdone⟩ := Bool.and_eq_true_iff.1 hs
  cases hd : t.status.done with
  | false =>
    obtain ⟨e, hn, hr | hst | hi⟩ := done_clearing_input (h.done_cleared hdone hd)
    · exact ⟨e, hn, .inl hr⟩
    · exact ⟨e, hn, .inr (.inl hst)⟩
    · exact ⟨e, hn, .inr (.inr (.inl hi))⟩
  | true =>
    have hoff : t.irqEn = false := by simpa [State.irq, hd] using ht
    rcases h.irqEn_changed (by simp [hen, hoff]) with ⟨e, hn, hr⟩ | ⟨v, hv, hn⟩
    · exact ⟨e, hn, .inl hr⟩
    · exact ⟨_, hn, .inr (.inr (.inr ⟨v, hv.trans hoff, rfl, rfl⟩))⟩

end

section
/-! The issue of every word, the engine's turn, and the model fault of an unmarked input bit (10_state R50, R51,
R54). -/

namespace Sys2Proof.Machine

/-- exec of a well-formed command with none in flight is the issue of its word. -/
theorem exec_eq_writeCmd {s : State} (h : s.busy = false) {i : Instr} (hwf : i.wf = true) :
    exec i s = writeCmd (encode i) s := by
  simp [writeCmd, h, decode_encode hwf]

/-- With a command in flight and no turn of the host, the next agent is the engine (log entry 2). -/
theorem State.nextAgent_engine {s : State} (hb : s.busy = true) (h : s.inputs = [] ∨ s.turns.head? ≠ some .host) :
    s.nextAgent = some .engine := by
  unfold State.nextAgent
  rw [hb]
  cases hin : s.inputs with
  | nil => rfl
  | cons e rest =>
    have hturn : s.turns.head? ≠ some .host := h.resolve_left (by simp [hin])
    cases ht : s.turns with
    | nil => rfl
    | cons a more =>
      cases a with
      | engine => rfl
      | host => simp [ht] at hturn

/-- A race uses up one entry of the turns. -/
theorem State.takeTurn_of_busy {s : State} (hb : s.busy = true) :
    s.takeTurn = { s with turns := if s.inputs.isEmpty then s.turns else s.turns.tail } := by
  unfold State.takeTurn
  split
  · next hin => rw [if_neg (by simp [hin])]
  · next hne =>
    have hin : s.inputs = [] := by
      by_contra hcons
      obtain ⟨e, rest, hcons⟩ := List.exists_cons_of_ne_nil hcons
      exact hne e rest hb hcons
    rw [if_pos (by simp [hin])]

/-! ## Regions with an unmarked bit -/

/-- A region read stops at the lowest unmarked bit of the region (10_state R54; log entry 6). -/
theorem Memory.readSeq_error {m : Memory} (hm : m.wf) {a n e : Nat} (hle : a ≤ e) (hlt : e < a + n)
    (hnone : m.read e = none) (hlow : ∀ x, a ≤ x → x < e → m.read x ≠ none) : m.readSeq a n = .error e := by
  have hspec := Memory.readSeq_spec hm a n
  cases hr : m.readSeq a n with
  | ok bs =>
    rw [hr] at hspec
    obtain ⟨hlen, hbits⟩ := hspec
    have hmark := hbits (e - a) (by omega)
    rw [Nat.add_sub_cancel' hle, hnone] at hmark
    cases hmark
  | error e' =>
    rw [hr] at hspec
    obtain ⟨⟨hle', -⟩, hnone', hlow'⟩ := hspec
    rcases Nat.lt_trichotomy e e' with h | rfl | h
    · exact absurd hnone (hlow' e hle h)
    · rfl
    · exact absurd hnone' (hlow e' hle' h)

/-- A region read of marked bits goes on. -/
theorem Memory.readSeq_of_marked {m : Memory} (hm : m.wf) {a n : Nat}
    (hmarked : ∀ x, a ≤ x → x < a + n → m.read x ≠ none) : ∃ bs, m.readSeq a n = .ok bs := by
  have hspec := Memory.readSeq_spec hm a n
  cases hr : m.readSeq a n with
  | ok bs => exact ⟨bs, rfl⟩
  | error e =>
    rw [hr] at hspec
    obtain ⟨⟨hle, hlt⟩, hnone, -⟩ := hspec
    exact absurd hnone (hmarked e hle hlt)

theorem withBits_fault {s : State} {sp : Space} (hm : (s.mem sp).wf) {a n e : Nat}
    (k : List Bool → Host.Outcome State Fault Refusal) (hle : a ≤ e) (hlt : e < a + n)
    (hnone : (s.mem sp).read e = none) (hlow : ∀ x, a ≤ x → x < e → (s.mem sp).read x ≠ none) :
    withBits sp a n s k = .fault (.uninitRead sp e) := by
  simp only [withBits, Memory.readSeq_error hm hle hlt hnone hlow]

/-- A command in flight whose source region has an unmarked bit is the fault of the lowest one. -/
theorem exec_unmarked_source {s : State} {i : Instr} (hb : s.busy = true) (hm : s.bitmem.wf) {a : Nat}
    (hle : s.op.src.toNat ≤ a) (hlt : a < s.op.src.toNat + readBits i s.op) (hnone : s.bitmem.read a = none)
    (hlow : ∀ x, s.op.src.toNat ≤ x → x < a → s.bitmem.read x ≠ none) :
    exec i s = .fault (.uninitRead .bitmem a) := by
  have hfault (k) : withBits .bitmem s.op.src.toNat (readBits i s.op) s k = .fault (.uninitRead .bitmem a) :=
    withBits_fault (sp := .bitmem) hm k hle hlt hnone hlow
  cases i with
  | genLfsr | rank | dft | bm | lincomp =>
    simp only [exec, execGenLfsr, execRank, execDft, execBm, execLincomp, hb, if_true]
    exact hfault _
  | _ => exact absurd hlt (by simp [readBits, hle])

/-- GEN_LFSR in flight, with a whole initial state, is the fault of the lowest unmarked coefficient. -/
theorem exec_unmarked_coefficient {s : State} {lsbf : Bool} {width a : Nat} (hb : s.busy = true) (hm : s.bitmem.wf)
    (hp : s.polymem.wf)
    (hinit : ∀ x, s.op.src.toNat ≤ x → x < s.op.src.toNat + s.op.lfsrL.toNat → s.bitmem.read x ≠ none)
    (hle : 1 ≤ a) (hlt : a ≤ s.op.lfsrL.toNat) (hnone : s.polymem.read a = none)
    (hlow : ∀ x, 1 ≤ x → x < a → s.polymem.read x ≠ none) :
    exec (.genLfsr lsbf width) s = .fault (.uninitRead .polymem a) := by
  obtain ⟨init, hr⟩ := Memory.readSeq_of_marked hm hinit
  have hok (k) : withBits .bitmem s.op.src.toNat s.op.lfsrL.toNat s k = k init := by simp [withBits, State.mem, hr]
  simp only [exec, execGenLfsr, hb, if_true, hok]
  exact withBits_fault (sp := .polymem) hp _ hle (by omega) hnone hlow

end Sys2Proof.Machine

open Sys2Proof Sys2Proof.Machine

/-- Settles O10: every issued word has one of the effects of `IssueEffect`, whose frame is this one. -/
theorem issueLatchesAndClears : Obligations.IssueLatchesAndClears := by
  unfold Obligations.IssueLatchesAndClears
  constructor
  · intro s w hb
    obtain ⟨t, hwrite, heff⟩ := writeCmd_idle hb w
    obtain ⟨hframe, hovr, hend⟩ := heff.frame
    have hop : t.op = OpSet.latch s.regs w := by rw [hframe]
    exact ⟨t, hwrite, hop ▸ OpSet.latch_latchedFrom s.regs w, hop ▸ hframe, hovr, hend⟩
  · intro s i hb hwf
    rw [exec_eq_writeCmd hb hwf]
    obtain ⟨t, hwrite, -⟩ := writeCmd_idle hb (encode i)
    exact ⟨rfl, t, hwrite⟩

/-- Settles O11: OP latched from the word of a command names that command. -/
theorem acceptedCommandIsInFlight : Obligations.AcceptedCommandIsInFlight := by
  unfold Obligations.AcceptedCommandIsInFlight
  intro s i hwf hi
  have hflight := accept_inFlight hwf hi s
  exact ⟨hflight, State.busy_of_inFlight hflight⟩

/-- Settles O39: the source region is read first, then for GEN_LFSR the coefficients, and a region read stops at its
lowest unmarked bit. -/
theorem unmarkedInputIsTheModelFault : Obligations.UnmarkedInputIsTheModelFault := by
  unfold Obligations.UnmarkedInputIsTheModelFault
  intro s i hflight hm hp
  have hb := State.busy_of_inFlight hflight
  refine ⟨fun a => exec_unmarked_source hb hm, ?_⟩
  rintro lsbf width a rfl
  exact exec_unmarked_coefficient hb hm hp

/-- Settles O6: the engine is the next agent, and its step is exec of the command in flight. -/
theorem stepCompletesTheCommandInFlight : Obligations.StepCompletesTheCommandInFlight := by
  unfold Obligations.StepCompletesTheCommandInFlight
  intro s i hflight hturn
  have hb := State.busy_of_inFlight hflight
  have hengine : engineStep s.takeTurn = exec i s.takeTurn := by simp [engineStep, hflight]
  rw [← State.takeTurn_of_busy hb, ← hengine]
  simp only [step, agentStep, State.nextAgent_engine hb hturn]

/-- Settles O9: the endings at issue by their definitions, as whole records. -/
theorem issueEndingsAsRecords : Obligations.IssueEndingsAsRecords := by
  unfold Obligations.IssueEndingsAsRecords
  intro s w code info
  exact ⟨rfl, rfl, rfl⟩

end

section
/-! The host's accesses to the registers and the windows (10_state.md section 2, 20_memory R64 to R67). -/

namespace Sys2Proof.Machine

/-! ## The registers by their offsets -/

/-- The offset of an operand register is mapped to it (10_state R23). -/
theorem regAt_operandOffset (r : OperandReg) : regAt (operandOffset r) = some (.operand r) := by
  cases r <;> rfl

/-- A register other than CMD that ignores writes reads its value, and a write to it only answers (10_state R46). -/
theorem inputStep_readOnly {off : Nat} {r : Reg} {v : Word} {s : State} (h : regAt off = some r) (hv : s.readReg r = v)
    (hr : r ≠ .cmd) (hro : ∀ (t : State) (x : Word), t.writeReg x r = t) :
    inputStep (hostRead s.cfg off) s = .next (s.respond (.data off v)) ∧
      ∀ x, inputStep (hostWrite s.cfg off x) s = .next (s.respond (.written off)) := by
  constructor
  · rw [inputStep_read h, hv]
  · intro x
    rw [inputStep_write h hr, hro]

/-- The offsets that the register map names lie in four ranges (10_state R23). -/
theorem regAt_eq_none {off : Nat}
    (h : (0x014 ≤ off ∧ off < 0x020) ∨ (0x060 ≤ off ∧ off < 0x080) ∨ (0x0AC ≤ off ∧ off < 0x0C0) ∨ 0x0D0 ≤ off) :
    regAt off = none := by
  cases hr : regAt off with
  | none => rfl
  | some r =>
    have hm := regAt_mem hr
    simp only [controlMap, operandMap, resultMap, List.cons_append, List.nil_append, List.mem_cons, Prod.mk.injEq,
      List.not_mem_nil, or_false] at hm
    omega

/-- An aligned access of an unmapped offset below the windows only gets an answer (10_state R45, 20_memory R61). -/
theorem inputStep_unmapped {off : Nat} (h4 : off % 4 = 0) (hlt : off < 0x080000) (hnone : regAt off = none) (s : State) :
    inputStep (hostRead s.cfg off) s = .next (s.respond (.data off 0)) ∧
      ∀ v, inputStep (hostWrite s.cfg off v) s = .next (s.respond (.written off)) := by
  simp only [inputStep, hostRead, hostWrite, hostAccess, target_aligned s.cfg _ (show off < 0x200000 by omega) h4, hnone]
  by_cases hreg : off < 0x001000
  · simp [show regionAt off = .regWindow from if_pos hreg]
  · simp [show regionAt off = .unmapped from (if_neg hreg).trans (if_pos hlt)]

/-! ## STATUS as a word -/

/-- Bit i of a 32-bit value whose bit i, as a digit, is `b`. -/
theorem getLsbD_of_digit {n i : Nat} {b : Bool} (hi : i < 32) (h : n / 2 ^ i % 2 = b.toNat) :
    (BitVec.ofNat 32 n).getLsbD i = b := by
  rw [BitVec.getLsbD_ofNat, decide_eq_true hi, Bool.true_and, Nat.testBit_eq_decide_div_mod_eq, h]
  cases b <;> rfl

/-- Bits i+w-1 to i of a 32-bit value, from its digits. -/
theorem extractLsb'_of_digits {n i w : Nat} {v : BitVec w} (hn : n < 2 ^ 32) (h : n / 2 ^ i % 2 ^ w = v.toNat) :
    (BitVec.ofNat 32 n).extractLsb' i w = v := by
  apply BitVec.eq_of_toNat_eq
  rw [BitVec.extractLsb'_toNat, BitVec.toNat_ofNat, Nat.mod_eq_of_lt hn, Nat.shiftRight_eq_div_pow, h]

/-- STATUS reads its fields at their bits, and 0 elsewhere (10_state R34). -/
theorem statusWord_fields (s : State) :
    s.statusWord.getLsbD 0 = s.busy ∧ s.statusWord.getLsbD 1 = s.status.done ∧
      s.statusWord.getLsbD 2 = s.status.err ∧ s.statusWord.getLsbD 3 = s.status.insuff ∧
      s.statusWord.getLsbD 4 = s.status.ovr ∧ s.statusWord.extractLsb' 5 3 = 0#3 ∧
      s.statusWord.extractLsb' 8 8 = s.status.errCode.code ∧ s.statusWord.extractLsb' 16 8 = s.status.errInfo ∧
      s.statusWord.extractLsb' 24 8 = 0#8 := by
  have hbusy := s.busy.toNat_le
  have hdone := s.status.done.toNat_le
  have herr := s.status.err.toNat_le
  have hinsuff := s.status.insuff.toNat_le
  have hovr := s.status.ovr.toNat_le
  have hcode : s.status.errCode.code.toNat < 256 := s.status.errCode.code.isLt
  have hinfo : s.status.errInfo.toNat < 256 := s.status.errInfo.isLt
  have hzero3 : (0#3).toNat = 0 := rfl
  have hzero8 : (0#8).toNat = 0 := rfl
  unfold State.statusWord
  refine ⟨getLsbD_of_digit (by decide) ?_, getLsbD_of_digit (by decide) ?_, getLsbD_of_digit (by decide) ?_,
    getLsbD_of_digit (by decide) ?_, getLsbD_of_digit (by decide) ?_, extractLsb'_of_digits ?_ ?_,
    extractLsb'_of_digits ?_ ?_, extractLsb'_of_digits ?_ ?_, extractLsb'_of_digits ?_ ?_⟩
  all_goals omega

/-! ## The soft reset -/

theorem State.abort_of_idle {s : State} (h : s.busy = false) : s.abort = s := by
  have hnone : s.inFlight = none := Option.isSome_eq_false_iff.1 h |> Option.isNone_iff_eq_none.1
  simp only [State.abort, hnone]

theorem OperandRegs.get_reset (r : OperandReg) : OperandRegs.reset.get r = 0 := by
  cases r <;> rfl

theorem State.ctrlWord_eq (s : State) : s.ctrlWord = if s.irqEn then 1 else 0 := by
  unfold State.ctrlWord
  cases s.irqEn <;> rfl

end Sys2Proof.Machine

open Sys2Proof Sys2Proof.Machine

/-- Settles O45: the operand registers are mapped, and a write sets its register alone. -/
theorem operandRegistersHoldWhatIsWritten : Obligations.OperandRegistersHoldWhatIsWritten := by
  unfold Obligations.OperandRegistersHoldWhatIsWritten
  intro s r v
  have hr := regAt_operandOffset r
  exact ⟨inputStep_read hr s, _, inputStep_write hr Reg.noConfusion v s, OperandRegs.get_set_same ..,
    fun x hx => OperandRegs.get_set_other _ _ hx, rfl⟩

/-- Settles O46: the digits of the STATUS word, and the acknowledgement of a write. -/
theorem statusRegister : Obligations.StatusRegister := by
  unfold Obligations.StatusRegister
  intro s v
  have hr : regAt 0x00C = some .status := rfl
  exact ⟨s.statusWord, inputStep_read hr s, statusWord_fields s, inputStep_write hr Reg.noConfusion v s⟩

/-- Settles O47: a CTRL write either sets IRQ_EN or is the soft reset, which clears every register and, with no command
in flight, aborts nothing. -/
theorem controlRegister : Obligations.ControlRegister := by
  unfold Obligations.ControlRegister
  intro s v
  have hr : regAt 0x008 = some .ctrl := rfl
  have hw := inputStep_write hr Reg.noConfusion v s
  refine ⟨?_, fun hv => ?_, fun hv => ?_⟩
  · rw [inputStep_read hr, State.readReg, State.ctrlWord_eq]; rfl
  · rw [hw, State.writeReg, State.writeCtrl, hv]; rfl
  · refine ⟨(s.respond (.written 0x008)).softReset, ?_, rfl, rfl, OperandRegs.get_reset, rfl, rfl, rfl, rfl, rfl, rfl,
      fun hb => ?_⟩
    · rw [hw, State.writeReg, State.writeCtrl, if_pos hv]
    · have habort : (s.respond (.written 0x008)).abort = s.respond (.written 0x008) := State.abort_of_idle hb
      rw [State.softReset_bitmem, State.softReset_polymem, habort]
      exact ⟨rfl, rfl⟩

/-- Settles O51: the word is read as a region, which stops at its lowest unmarked bit. -/
theorem windowReadOfUnmarkedBitFaults : Obligations.WindowReadOfUnmarkedBitFaults := by
  unfold Obligations.WindowReadOfUnmarkedBitFaults
  intro s sp j b hb hword hm hcap hb32 hnone hlow
  have hlow' : ∀ x, 32 * j ≤ x → x < 32 * j + b → (s.mem sp).read x ≠ none := by
    intro x hle hlt
    obtain ⟨k, rfl⟩ := Nat.exists_eq_add_of_le hle
    exact hlow k (by omega)
  rw [inputStep_readWindow hword, readWindow, hb, if_neg Bool.false_ne_true, if_neg (Nat.not_le.2 hcap)]
  exact withBits_fault hm _ (Nat.le_add_right ..) (by omega) hnone hlow'

/-- Settles O42: the six registers are mapped, read their constants and ignore writes. -/
theorem identityAndCapabilityRegisters : Obligations.IdentityAndCapabilityRegisters := by
  unfold Obligations.IdentityAndCapabilityRegisters
  intro s off v h
  rcases h with ⟨rfl, rfl⟩ | ⟨rfl, rfl⟩ | ⟨rfl, rfl⟩ | ⟨rfl, rfl⟩ | ⟨rfl, rfl⟩ | ⟨rfl, rfl⟩ <;>
    exact inputStep_readOnly rfl rfl Reg.noConfusion fun _ _ => rfl

/-- Settles O43: the registers are mapped, read their values and, CMD apart, ignore writes. -/
theorem resultRegistersReadTheirValues : Obligations.ResultRegistersReadTheirValues := by
  unfold Obligations.ResultRegistersReadTheirValues
  intro s off v h
  by_cases hcmd : off = 0x010
  · subst hcmd
    obtain rfl : v = 0 := by simpa using h
    exact ⟨inputStep_read (r := .cmd) rfl s, fun hne => absurd rfl hne⟩
  · simp only [List.mem_cons, Prod.mk.injEq, List.not_mem_nil, or_false, hcmd, false_and] at h
    refine And.imp_right (fun hro _ => hro) ?_
    rcases h with ⟨rfl, rfl⟩ | ⟨rfl, rfl⟩ | ⟨rfl, rfl⟩ | ⟨rfl, rfl⟩ | ⟨rfl, rfl⟩ | ⟨rfl, rfl⟩ | ⟨rfl, rfl⟩ | ⟨rfl, rfl⟩ |
      ⟨rfl, rfl⟩ | ⟨rfl, rfl⟩ | ⟨rfl, rfl⟩ <;>
      exact inputStep_readOnly rfl rfl Reg.noConfusion fun _ _ => rfl

/-- Settles O44: no register is mapped at these offsets. -/
theorem unmappedOffsetsReadZero : Obligations.UnmappedOffsetsReadZero := by
  unfold Obligations.UnmappedOffsetsReadZero
  intro s off h4 h
  exact inputStep_unmapped h4 (by omega) (regAt_eq_none (by omega)) s

/-- Settles O52: the refusal of a CMD write and of both window accesses. -/
theorem accessesRefusedWhileBusy : Obligations.AccessesRefusedWhileBusy := by
  unfold Obligations.AccessesRefusedWhileBusy
  intro s v sp j hb hword
  refine ⟨?_, ?_, ?_⟩
  · rw [inputStep_writeCmd, writeCmd, State.respond_busy, if_pos hb]; rfl
  · rw [inputStep_readWindow hword, readWindow, if_pos hb]; rfl
  · rw [inputStep_writeWindow hword, writeWindow, if_pos hb]; rfl

end

section
/-! The two memories as the host reaches them and as every step leaves them (20_memory R63, R65 to R68, R73). -/

namespace Sys2Proof.Machine

/-! ## Bus errors -/

/-- An access in the aperture that is no aligned access of 4 bytes is a bus error (20_memory R63). -/
theorem target_malformed {cfg : Config} {a : Access} {off : Nat} (haddr : a.addr = cfg.rngeBase + off)
    (hlt : off < 0x200000) (hbad : a.size ≠ 4 ∨ off % 4 ≠ 0) : target cfg a = .malformed off := by
  have hinside : ¬(a.addr < cfg.rngeBase ∨ cfg.rngeBase + apertureSize ≤ a.addr) := by unfold apertureSize; omega
  have hoff : a.addr - cfg.rngeBase = off := by omega
  simp only [target, if_neg hinside, hoff, if_pos hbad]

/-! ## Words and their bits -/

@[simp] theorem bitsOfWord_length (v : Word) : (bitsOfWord v).length = 32 := by simp [bitsOfWord]

/-- Bit b of a word is element b of its bits (20_memory R65, R66). -/
theorem bitsOfWord_getD (v : Word) {b : Nat} (hb : b < 32) : (bitsOfWord v).getD b false = v.getLsbD b := by
  simp [bitsOfWord, List.getD_eq_getElem?_getD, hb]

/-- Bit i of the number of a bit list is element i, and 0 past the list. -/
theorem natOfBits_testBit (bs : List Bool) (i : Nat) : (natOfBits bs).testBit i = bs.getD i false := by
  induction bs generalizing i with
  | nil => simp [natOfBits]
  | cons b bs ih =>
    cases i with
    | zero => cases b <;> simp [natOfBits, Nat.testBit_zero, Nat.add_mod]
    | succ i =>
      have hhalf : natOfBits (b :: bs) / 2 = natOfBits bs := by
        have hb := b.toNat_le
        simp only [natOfBits]
        omega
      rw [Nat.testBit_succ, hhalf, ih, List.getD_cons_succ]

@[simp] theorem wordOfBits_bitsOfWord (v : Word) : wordOfBits (bitsOfWord v) = v := by
  apply BitVec.eq_of_getLsbD_eq
  intro b hb
  rw [wordOfBits, BitVec.getLsbD_ofNat, decide_eq_true hb, Bool.true_and, natOfBits_testBit, bitsOfWord_getD v hb]

/-- Bit i of byte lane k is bit 8k+i of the word (20_memory R68). -/
theorem byteLane_getLsbD (v : Word) (k : Nat) {i : Nat} (hi : i < 8) :
    (byteLane v k).getLsbD i = v.getLsbD (8 * k + i) := by
  simp [byteLane, hi]

/-- Word j of a memory holds `v` exactly when its 32 bits are those of `v`, all marked (20_memory R65, R66). -/
theorem holdsBits_bitsOfWord {m : Memory} {j : Nat} {v : Word} :
    holdsBits m (32 * j) (bitsOfWord v) ↔ ∀ b, b < 32 → m.read (32 * j + b) = some (v.getLsbD b) := by
  simp only [holdsBits, bitsOfWord_length]
  exact forall₂_congr fun b hb => by rw [bitsOfWord_getD v hb]

/-! ## The windows with no command in flight -/

@[simp] theorem State.respond_mem (s : State) (r : Response) (sp : Space) : (s.respond r).mem sp = s.mem sp := by
  cases sp <;> rfl

section
variable {s : State} {sp : Space} {j : Nat} (hb : s.busy = false)
include hb

theorem writeWindow_inside (hcap : 32 * j < capacityOf s.cfg sp) (off : Nat) (v : Word) :
    writeWindow sp off j v s =
      (s.setMem sp ((s.mem sp).writeSeq (32 * j) (bitsOfWord v))).respond (.written off) := by
  rw [writeWindow, hb, if_neg Bool.false_ne_true, if_neg (Nat.not_le.2 hcap)]

theorem readWindow_inside (hcap : 32 * j < capacityOf s.cfg sp) (hm : (s.mem sp).wf) {v : Word}
    (hword : holdsBits (s.mem sp) (32 * j) (bitsOfWord v)) (off : Nat) :
    readWindow sp off j s = .next (s.respond (.data off v)) := by
  have hread : (s.mem sp).readSeq (32 * j) 32 = .ok (bitsOfWord v) := by
    simpa using Memory.readSeq_ok hm hword
  rw [readWindow, hb, if_neg Bool.false_ne_true, if_neg (Nat.not_le.2 hcap), withBits, hread]
  simp only [wordOfBits_bitsOfWord]

/-- A word past the capacity ignores writes (20_memory R65, R66). -/
theorem writeWindow_past (hcap : capacityOf s.cfg sp ≤ 32 * j) (off : Nat) (v : Word) :
    writeWindow sp off j v s = s.respond (.written off) := by
  rw [writeWindow, hb, if_neg Bool.false_ne_true, if_pos hcap]

/-- A word past the capacity reads 0 (20_memory R65, R66). -/
theorem readWindow_past (hcap : capacityOf s.cfg sp ≤ 32 * j) (off : Nat) :
    readWindow sp off j s = .next (s.respond (.data off 0)) := by
  rw [readWindow, hb, if_neg Bool.false_ne_true, if_pos hcap]

end

/-! ## Which steps change which bit -/

/-- The destination of a command on the operands `o`, as bits of a memory (20_memory R73, 45 R218). -/
def inDestination (i : Instr) (o : OpSet) : Space → Nat → Prop
  | .bitmem, a => o.dst.toNat ≤ a ∧ a < o.dst.toNat + writtenBits i o
  | .polymem, a => i = .bm ∧ a ≤ o.len.toNat

/-- A bit that a region write changes lies in the region. -/
theorem Memory.in_region_of_changed {m : Memory} {a x : Nat} {bs : List Bool}
    (hne : (m.writeSeq a bs).read x ≠ m.read x) : a ≤ x ∧ x < a + bs.length := by
  by_contra hout
  exact hne (Memory.read_writeSeq_out m a bs (by omega))

theorem State.mem_setMem_other (s : State) {sp sp' : Space} (m : Memory) (h : sp' ≠ sp) :
    (s.setMem sp m).mem sp' = s.mem sp' := by
  cases sp with
  | bitmem =>
    cases sp' with
    | bitmem => exact absurd rfl h
    | polymem => rfl
  | polymem =>
    cases sp' with
    | bitmem => rfl
    | polymem => exact absurd rfl h

/-- A bit of memory changes only in a completion with that bit in its destination, in a window write of its word with no
command in flight, or in a reset. -/
theorem StepEffect.mem_changed {s t : State} (h : StepEffect s t) {sp : Space} {a : Nat}
    (hne : (t.mem sp).read a ≠ (s.mem sp).read a) :
    (∃ i, s.inFlight = some i ∧ s.nextInput = none ∧ inDestination i s.op sp a) ∨
    (s.busy = false ∧ ∃ v, s.nextInput = some (hostWrite s.cfg (windowOffset sp (a / 32)) v)) ∨ s.byReset := by
  cases h with
  | @windowWrite ins rs ts sp' j v hbusy hword hcap hnext =>
    by_cases hsp : sp = sp'
    · subst hsp
      rw [State.mem_setMem_same] at hne
      obtain ⟨hle, hlt⟩ := Memory.in_region_of_changed hne
      rw [bitsOfWord_length] at hlt
      obtain rfl : a / 32 = j := by omega
      exact .inr (.inl ⟨hbusy, v, hnext⟩)
    · rw [State.mem_setMem_other _ _ hsp] at hne
      exact absurd (by cases sp <;> rfl) hne
  | @completion ts i e hflight hnext hbit hpoly =>
    refine .inl ⟨i, hflight, hnext, ?_⟩
    cases sp with
    | bitmem =>
      have hbitmem : e.bitmem.read a ≠ s.bitmem.read a := hne
      rcases hbit with heq | ⟨bs, hlen, heq⟩ <;> rw [heq] at hbitmem
      · exact absurd rfl hbitmem
      · obtain ⟨hle, hlt⟩ := Memory.in_region_of_changed hbitmem
        exact ⟨hle, by omega⟩
    | polymem =>
      have hpolymem : e.polymem.read a ≠ s.polymem.read a := hne
      rcases hpoly with heq | ⟨hbm, bs, hlen, heq⟩ <;> rw [heq] at hpolymem
      · exact absurd rfl hpolymem
      · obtain ⟨-, hlt⟩ := Memory.in_region_of_changed hpolymem
        exact ⟨hbm, by omega⟩
  | reset _ _ _ hnext hreset => exact .inr (.inr ⟨_, hnext, hreset⟩)
  | issue _ _ _ _ _ hissue =>
    rw [hissue.frame.1] at hne
    exact absurd (by cases sp <;> rfl) hne
  | _ => exact absurd (by cases sp <;> rfl) hne

end Sys2Proof.Machine

open Sys2Proof Sys2Proof.Machine

/-- Settles O50: inside the capacity an access of a word is a write or a read of its 32 bits, past it nothing is
reached. -/
theorem windowsReachTheirMemories : Obligations.WindowsReachTheirMemories := by
  unfold Obligations.WindowsReachTheirMemories
  intro s sp j v hb hwindow hm
  rw [inputStep_writeWindow hwindow, inputStep_readWindow hwindow]
  refine ⟨fun hcap => ⟨?_, fun hword => ⟨?_, fun k i hk hi => ?_⟩⟩, fun hcap => ⟨?_, ?_⟩⟩
  · rw [writeWindow_inside hb hcap]
    refine ⟨_, rfl, ?_⟩
    rw [State.respond_mem, State.mem_setMem_same]
    refine ⟨holdsBits_bitsOfWord.1 (Memory.writeSeq_holds _ _ _), ?_, ?_⟩
    · simpa using Memory.writeSeq_sameOutside (s.mem sp) (32 * j) (bitsOfWord v)
    · cases sp <;> rfl
  · exact readWindow_inside hb hcap hm (holdsBits_bitsOfWord.2 hword) _
  · rw [byteLane_getLsbD v k hi, ← hword _ (by omega), show 8 * (4 * j + k) + i = 32 * j + (8 * k + i) by omega]
  · rw [writeWindow_past hb hcap]; rfl
  · exact readWindow_past hb hcap _

/-- Settles O56: for each memory, by the effects a step can have. -/
theorem memoryChangesOnlyAsNamed : Obligations.MemoryChangesOnlyAsNamed := by
  unfold Obligations.MemoryChangesOnlyAsNamed
  intro s t hstep
  have h := step_effect hstep
  refine ⟨fun a hne => h.mem_changed (sp := .bitmem) hne, fun a hne => ?_⟩
  rcases h.mem_changed (sp := .polymem) hne with ⟨i, hflight, hnext, rfl, ha⟩ | hother
  · exact .inl ⟨hflight, hnext, ha⟩
  · exact .inr hother

/-- Settles O41: such an access is a bus error, whatever it does. -/
theorem busErrorHasNoEffect : Obligations.BusErrorHasNoEffect := by
  unfold Obligations.BusErrorHasNoEffect
  intro s a off haddr hlt hbad
  simp only [inputStep, hostAccess, target_malformed haddr hlt hbad]
  rfl

end

section
/-! Decoding every word, from the bits that the row of its OPC reserves (30_encoding R86 to R92), and what the machine
does with an illegal word (30_encoding R94). -/

namespace Sys2Proof

/-! ## The row of a word's OPC -/

theorem wordOpc_toNat (w : Word) : (wordOpc w).toNat = w.toNat % 256 := by
  rw [wordOpc, BitVec.extractLsb'_toNat, Nat.shiftRight_zero]

theorem wordWidth_toNat (w : Word) : (wordWidth w).toNat = w.toNat / 2 ^ 16 % 2 ^ 8 := by
  rw [wordWidth, BitVec.extractLsb'_toNat, Nat.shiftRight_eq_div_pow]

/-- The assigned OPC values are those of the table (30_encoding R86). -/
theorem mem_assignedOpcodes_iff (w : Word) :
    w.toNat % 256 ∈ assignedOpcodes ↔ ∃ row ∈ encodingTable, row.opc = wordOpc w := by
  have htable : assignedOpcodes = encodingTable.map (fun row => row.opc.toNat) := rfl
  simp only [htable, List.mem_map, ← wordOpc_toNat, BitVec.toNat_inj]

/-- The OPC of a row names a command, whatever the fields. -/
theorem exists_ofFields_row {row : EncodingRow} (hr : row ∈ encodingTable) (l a : Bool) (wd : Octet) :
    ∃ i, Instr.ofFields row.opc l a wd = some i := by
  simp only [encodingTable, List.mem_cons, List.not_mem_nil, or_false] at hr
  rcases hr with rfl | rfl | rfl | rfl | rfl | rfl | rfl | rfl | rfl | rfl | rfl <;> exact ⟨_, rfl⟩

/-- A word whose OPC has no row is CFG_UNKNOWN_OP whatever its other bits (30_encoding R91). -/
theorem decode_of_unassigned {w : Word} (h : w.toNat % 256 ∉ assignedOpcodes) : decode w = .error .unknownOp := by
  have hnone : encodingRow (wordOpc w) = none := by
    simpa [encodingRow, List.find?_eq_none, mem_assignedOpcodes_iff] using h
  rw [decode, hnone]

section
variable {w : Word} {row : EncodingRow} (hr : row ∈ encodingTable) (ho : row.opc = wordOpc w)
include hr ho

/-- A word that does not match the row of its OPC is CFG_RESERVED (30_encoding R91). -/
theorem decode_of_mismatch (hm : w &&& row.mask ≠ row.pattern) : decode w = .error .reserved := by
  obtain ⟨-, -, -, -, hrow⟩ := encodingTable_rows row hr
  simp [decode, ← ho, hrow, hm]

/-- A word that matches the row of its OPC is a command (30_encoding R91). -/
theorem decode_of_match (hm : w &&& row.mask = row.pattern) : ∃ i, decode w = .command i := by
  obtain ⟨-, -, -, -, hrow⟩ := encodingTable_rows row hr
  obtain ⟨i, hi⟩ := exists_ofFields_row hr (wordLsbf w) (wordSa w) (wordWidth w)
  exact ⟨i, by simp [decode, ← ho, hrow, hm, hi]⟩

/-- A word matches the row of its OPC when each field that the row reserves is clear (30_encoding R92). -/
theorem match_iff_reserved_clear :
    w &&& row.mask = row.pattern ↔
      w &&& 0xFF00FC00 = 0 ∧ (wordLsbf w && wordLsbf row.mask) = false ∧ (wordSa w && wordSa row.mask) = false ∧
        wordWidth w &&& wordWidth row.mask = 0 := by
  obtain ⟨hmask, hclear, hopc, hpat, -⟩ := encodingTable_rows row hr
  constructor
  · intro hm
    refine ⟨?_, ?_, ?_, ?_⟩
    · rw [← hmask, ← BitVec.and_assoc, hm, hclear]
    · rw [← wordLsbf_and, hm, hpat, wordLsbf_assemble]
    · rw [← wordSa_and, hm, hpat, wordSa_assemble]
    · rw [← wordWidth_and, hm, hpat, wordWidth_assemble]
  · rintro ⟨hres, hl, ha, hw⟩
    rw [← assemble_fields hres, assemble_and, hl, ha, hw, ← ho, hopc, hpat]

end

/-! ## The reserved bits of 30_encoding R90 and R92 -/

/-- Bits 15:10 and 31:24 are clear as a mask and as two fields (30_encoding R90). -/
theorem always_reserved_clear_iff_fields (w : Word) :
    w &&& 0xFF00FC00 = 0 ↔ w.extractLsb' 10 6 = 0 ∧ w.extractLsb' 24 8 = 0 := by
  constructor
  · intro h
    constructor <;> ext i hi
    · simpa using reserved_of_and_eq_zero h (i := 10 + i) (by omega) (by omega)
    · simpa using reserved_of_and_eq_zero h (i := 24 + i) (by omega) (by omega)
  · rintro ⟨hlow, hhigh⟩
    have hmask : ∀ i, i < 32 → (0xFF00FC00#32).getLsbD i = true → (10 ≤ i ∧ i - 10 < 6) ∨ (24 ≤ i ∧ i - 24 < 8) := by
      decide
    apply BitVec.eq_of_getLsbD_eq
    intro i hi
    suffices w.getLsbD i = true → (0xFF00FC00#32).getLsbD i = false by simpa
    intro hw
    by_contra hm
    rcases hmask i hi (Bool.eq_true_of_not_eq_false hm) with ⟨hle, hlt⟩ | ⟨hle, hlt⟩
    · have hbit := congrArg (BitVec.getLsbD · (i - 10)) hlow
      simp [hlt, Nat.add_sub_cancel' hle, hw] at hbit
    · have hbit := congrArg (BitVec.getLsbD · (i - 24)) hhigh
      simp [hlt, Nat.add_sub_cancel' hle, hw] at hbit

/-- Bits 15:10 and 31:24 are clear as a mask and as numbers (30_encoding R90). -/
theorem always_reserved_clear_iff_toNat (w : Word) :
    w &&& 0xFF00FC00 = 0 ↔ w.toNat / 2 ^ 10 % 2 ^ 6 = 0 ∧ w.toNat / 2 ^ 24 = 0 := by
  have hlt : w.toNat / 2 ^ 24 < 2 ^ 8 := Nat.div_lt_of_lt_mul w.isLt
  rw [always_reserved_clear_iff_fields, ← BitVec.toNat_inj, ← BitVec.toNat_inj]
  simp only [BitVec.extractLsb'_toNat, Nat.shiftRight_eq_div_pow, Nat.mod_eq_of_lt hlt, BitVec.ofNat_eq_ofNat,
    BitVec.toNat_ofNat, Nat.zero_mod]

/-- The fields that each row reserves, by the bits of its mask (30_encoding R92). -/
theorem encodingTable_reserved_fields : ∀ row ∈ encodingTable,
    (wordLsbf row.mask = true ↔ row.opc.toNat ∉ [0x01, 0x10, 0x11, 0x12, 0x13, 0x18]) ∧
    (wordSa row.mask = true ↔ row.opc.toNat ∉ [0x10, 0x11, 0x12, 0x13]) ∧
    wordWidth row.mask = if row.opc.toNat ∈ [0x01, 0x10, 0x11, 0x12, 0x13, 0x18] then 0 else 0xFF := by decide

/-- The reserved bits of a word, as 30_encoding R90 and R92 list them, are those of its row's mask. -/
theorem reservedBitSet_iff {w : Word} {row : EncodingRow} (hr : row ∈ encodingTable) (ho : row.opc = wordOpc w) :
    reservedBitSet w ↔ w &&& row.mask ≠ row.pattern := by
  obtain ⟨hlsbf, hsa, hwidth⟩ := encodingTable_reserved_fields row hr
  have hfull : wordWidth w &&& 255#8 = wordWidth w := BitVec.and_allOnes
  have hw : wordWidth w &&& wordWidth row.mask = 0 ↔
      (w.toNat / 2 ^ 16 % 2 ^ 8 = 0 ∨ row.opc.toNat ∈ [0x01, 0x10, 0x11, 0x12, 0x13, 0x18]) := by
    rw [hwidth, ← wordWidth_toNat]
    split
    · next hmem => simp [hmem]
    · next hmem => simp [hfull, hmem, ← BitVec.toNat_inj]
  rw [ne_eq, match_iff_reserved_clear hr ho, always_reserved_clear_iff_toNat, hw, Bool.and_eq_false_imp,
    Bool.and_eq_false_imp, ← Bool.not_eq_true, ← Bool.not_eq_true, hlsbf, hsa, ho, wordOpc_toNat]
  simp only [reservedBitSet, wordLsbf, wordSa]
  tauto

/-- An assigned OPC with a reserved bit set is CFG_RESERVED (30_encoding R91). -/
theorem decode_of_reserved {w : Word} (hopc : w.toNat % 256 ∈ assignedOpcodes) (hres : reservedBitSet w) :
    decode w = .error .reserved := by
  obtain ⟨row, hr, ho⟩ := (mem_assignedOpcodes_iff w).1 hopc
  exact decode_of_mismatch hr ho ((reservedBitSet_iff hr ho).1 hres)

/-- An assigned OPC with no reserved bit set is a command (30_encoding R91). -/
theorem decode_of_legal {w : Word} (hopc : w.toNat % 256 ∈ assignedOpcodes) (hres : ¬reservedBitSet w) :
    ∃ i, decode w = .command i := by
  obtain ⟨row, hr, ho⟩ := (mem_assignedOpcodes_iff w).1 hopc
  exact decode_of_match hr ho (not_not.1 (mt (reservedBitSet_iff hr ho).2 hres))

end Sys2Proof

namespace Sys2Proof.Machine

/-- The code reported for an illegal word is CFG_RESERVED when its OPC is assigned, else CFG_UNKNOWN_OP (30_encoding
R91, R94). -/
theorem decode_of_illegal {w : Word} (h : w.toNat % 256 ∉ assignedOpcodes ∨ reservedBitSet w) :
    ∃ e, decode w = .error e ∧
      decodeErrCode e = if w.toNat % 256 ∈ assignedOpcodes then .cfgReserved else .cfgUnknownOp := by
  by_cases hopc : w.toNat % 256 ∈ assignedOpcodes
  · exact ⟨_, decode_of_reserved hopc (h.resolve_left (not_not.2 hopc)), by rw [if_pos hopc, decodeErrCode]⟩
  · exact ⟨_, decode_of_unassigned hopc, by rw [if_neg hopc, decodeErrCode]⟩

end Sys2Proof.Machine

open Sys2Proof Sys2Proof.Machine

/-- Settles O1: the fields of the encoding select the command's row and pass its mask. -/
theorem decodeOfEncodeIsTheCommand : Obligations.DecodeOfEncodeIsTheCommand := by
  unfold Obligations.DecodeOfEncodeIsTheCommand
  intro i hwf
  exact decode_encode hwf

/-- Settles O2: a word that decodes has its command's fields and no reserved bit, so it is assembled from them. -/
theorem encodeOfDecodedIsTheWord : Obligations.EncodeOfDecodedIsTheWord := by
  unfold Obligations.EncodeOfDecodedIsTheWord
  intro w i hd
  exact encode_of_decode hd

/-- Settles O3: an assigned OPC has a row, whose mask is the reserved bits; the fields of a word that matches the row
are those of the command whose encoding it is. -/
theorem decodeIsTotalAndOrdered : Obligations.DecodeIsTotalAndOrdered := by
  unfold Obligations.DecodeIsTotalAndOrdered
  intro w
  refine ⟨decode_of_unassigned, decode_of_reserved, fun hopc hres => ?_⟩
  obtain ⟨i, hd⟩ := decode_of_legal hopc hres
  obtain ⟨hwf, rfl⟩ := encode_of_decode hd
  obtain ⟨hi, hl, ha, hw⟩ := encode_fields hwf
  exact ⟨i, hd, by rw [← hi, wordOpc_toNat], hl.symm, ha.symm, by rw [← hw, wordWidth_toNat]⟩

/-- Settles O4: the words by evaluation. -/
theorem workedEncodings : Obligations.WorkedEncodings := by
  unfold Obligations.WorkedEncodings
  decide

/-- Settles O8: the write to CMD is the issue of a word that decodes to an error, with the record of that ending. -/
theorem illegalWordsAreReported : Obligations.IllegalWordsAreReported := by
  unfold Obligations.IllegalWordsAreReported
  intro s w hb hillegal
  obtain ⟨e, hd, hcode⟩ := decode_of_illegal hillegal
  refine ⟨((s.respond (.written 0x010)).prepare w).fail (decodeErrCode e) 0x04, ?_,
    OpSet.latch_latchedFrom s.regs w, ?_, State.fail_busy ..⟩
  · rw [inputStep_writeCmd, writeCmd, State.respond_busy, hb, hd]
    rfl
  · rw [hcode]
    rfl

end

section
/-! PACK and NOP (40_control_pack.md), and what every completion leaves unchanged (10_state R51). -/

namespace Sys2Proof.Machine

/-! ## Completions -/

/-- A completion keeps everything but RES, STATE, ELAPSED and the memories, and sets DONE (10_state R51). -/
theorem State.complete_completedFrom (s : State) (e : Effects) : completedFrom s (s.complete e) :=
  ⟨State.complete_busy s e, rfl, rfl, rfl, rfl, rfl, rfl, rfl, rfl, rfl⟩

/-! ## The bits of a packed value (00_scope R14) -/

/-- Bit j packed is bit w-1-j of the value, MSB first, or bit j. -/
theorem pack_getD (v : Nat) {w j : Nat} (msb : Bool) (hj : j < w) :
    (pack v w msb).getD j false = v.testBit (if msb then w - 1 - j else j) := by
  cases msb <;> simp [pack, hj]

/-- LSB first is the reverse of MSB first, for a value of any size (40 R112). -/
theorem pack_lsb_eq_reverse (v w : Nat) : pack v w false = (pack v w true).reverse := by
  simp [pack]

/-! ## PACK -/

/-- OP.DST is DST at issue (10_state R50). -/
@[simp] theorem OpSet.latch_dst (r : OperandRegs) (w : Word) : (OpSet.latch r w).dst = r.dst := rfl

/-- What the completion of PACK writes (40 R111). -/
def packEffects (lsbf : Bool) (width : Nat) (s : State) : Effects where
  res     := { res0 := resultWord width }
  elapsed := s.elapsedDraw
  bitmem  := s.bitmem.writeSeq s.op.dst.toNat (pack s.op.seed.toNat width (!lsbf))
  polymem := s.polymem

/-- With a command in flight PACK completes. -/
theorem exec_pack_busy {s : State} (h : s.busy = true) (lsbf : Bool) (width : Nat) :
    exec (.pack lsbf width) s = .next (s.complete (packEffects lsbf width s)) := by
  simp [exec, execPack, h, packEffects]

/-- The bits that PACK writes at DST are the bits of SEED, in the order that LSBF names (40 R111). -/
theorem packEffects_read (s : State) (lsbf : Bool) {width j : Nat} (hj : j < width) :
    (packEffects lsbf width s).bitmem.read (s.op.dst.toNat + j) =
      some (s.op.seed.getLsbD (if lsbf then j else width - 1 - j)) := by
  rw [packEffects, Memory.read_writeSeq_in _ _ _ (by rwa [pack_length]), pack_getD _ _ hj, BitVec.testBit_toNat]
  cases lsbf <;> rfl

/-- PACK writes `width` bits at DST and no other bit (40 R113). -/
theorem packEffects_sameOutside (s : State) (lsbf : Bool) (width : Nat) :
    sameOutside s.bitmem (packEffects lsbf width s).bitmem s.op.dst.toNat width := by
  simpa only [packEffects, pack_length] using
    Memory.writeSeq_sameOutside s.bitmem s.op.dst.toNat (pack s.op.seed.toNat width (!lsbf))

end Sys2Proof.Machine

open Sys2Proof Sys2Proof.Machine

/-- Settles O18: PACK's completion is `packEffects`, read bit by bit inside and outside its destination region. -/
theorem packCompletes : Obligations.PackCompletes := by
  unfold Obligations.PackCompletes
  intro s lsbf width hflight
  have hstate : (packEffects lsbf width s).state = 0 := rfl
  exact ⟨_, exec_pack_busy (State.busy_of_inFlight hflight) lsbf width, State.complete_completedFrom s _, rfl,
    by simp [hstate], by simp [hstate], rfl, fun j hj => packEffects_read s lsbf hj, packEffects_sameOutside s lsbf width, rfl⟩

/-- Settles O19: on the function, and on the two completions bit by bit: bit j of the one is bit width-1-j of the
other. -/
theorem packOrdersAreReverses : Obligations.PackOrdersAreReverses := by
  unfold Obligations.PackOrdersAreReverses
  refine ⟨pack_lsb_eq_reverse, fun s1 s2 width h1 h2 hseed _ => ?_⟩
  refine ⟨_, _, exec_pack_busy (State.busy_of_inFlight h1) _ _, exec_pack_busy (State.busy_of_inFlight h2) _ _,
    fun j hj => ?_⟩
  have hmirror : width - 1 - (width - 1 - j) = j := by omega
  simp only [State.complete_bitmem]
  rw [packEffects_read s1 true hj, packEffects_read s2 false (by omega)]
  simp [hseed, hmirror]

/-- Settles O12: NOP's ending at issue, as a record. -/
theorem nopEndsAtIssue : Obligations.NopEndsAtIssue := by
  unfold Obligations.NopEndsAtIssue
  intro s _
  exact ⟨_, exec_nop s, rfl, State.endAtIssue_busy _, rfl, rfl, rfl, rfl, rfl, rfl, rfl, rfl, rfl, rfl, rfl, rfl, rfl⟩

/-- Settles O13: PACK's one check fails exactly when the destination region leaves BITMEM. -/
theorem packIssue : Obligations.PackIssue := by
  unfold Obligations.PackIssue
  intro s lsbf width hb _ t
  rw [exec_idle hb _ (by simp)]
  by_cases hrange : s.cfg.bitmemBits < s.regs.dst.toNat + width
  · simp [issue, commandChecks, packChecks, hrange, t]
  · simp [issue, commandChecks, commandShort, packChecks, hrange, t]

end

section
/-! The linear-congruential generators (41_lcg_generators.md): their issue, the loop of 41 R130 and how a generator
command completes. -/

namespace Sys2Proof.Machine

/-! ## The issue (41 R133) -/

/-- OP.NBITS is NBITS at issue (10_state R50). -/
@[simp] theorem OpSet.latch_nbits (r : OperandRegs) (w : Word) : (OpSet.latch r w).nbits = r.nbits := rfl

/-- The issue of a generator whose seed must be present: the seed first, then the destination region. -/
theorem issue_seededChecks (i : Instr) (sa : Bool) (s : State) :
    issue i (seededChecks sa) (fun _ => false) s = .next
      (if sa then (s.prepare (encode i)).fail .cfgSeedAbsent 0x08
        else if s.cfg.bitmemBits < s.regs.dst.toNat + s.regs.nbits.toNat then (s.prepare (encode i)).fail .cfgRange 0x13
        else (s.prepare (encode i)).accept) := by
  cases sa
  · by_cases hrange : s.cfg.bitmemBits < s.regs.dst.toNat + s.regs.nbits.toNat <;>
      simp [issue, seededChecks, hrange]
  · simp [issue, seededChecks]

/-- The issue of a generator with a default seed: only the destination region. -/
theorem issue_defaultSeedChecks (i : Instr) (s : State) :
    issue i defaultSeedChecks (fun _ => false) s = .next
      (if s.cfg.bitmemBits < s.regs.dst.toNat + s.regs.nbits.toNat then (s.prepare (encode i)).fail .cfgRange 0x13
        else (s.prepare (encode i)).accept) :=
  issue_seededChecks i false s

/-! ## Chunks and the number of steps (41 R130) -/

theorem chunkCount_zero {w : Nat} (hw : 0 < w) : chunkCount 0 w = 0 := Nat.div_eq_of_lt (by omega)

/-- One step serves `w` of the bits still to come. -/
theorem chunkCount_of_pos {n w : Nat} (hn : 0 < n) (hw : 0 < w) : chunkCount n w = chunkCount (n - w) w + 1 := by
  rcases Nat.le_total w n with h | h
  · rw [chunkCount, chunkCount, ← Nat.add_div_right _ hw]
    congr 1
    omega
  · rw [Nat.sub_eq_zero_of_le h, chunkCount_zero hw, chunkCount]
    exact Nat.div_eq_of_lt_le (by omega) (by omega)

/-- ceil(n / W) chunks of W bits hold n bits. -/
theorem le_chunkCount_mul (n : Nat) {w : Nat} (hw : 0 < w) : n ≤ chunkCount n w * w := by
  have hdiv := Nat.div_add_mod (n + w - 1) w
  have hmod := Nat.mod_lt (n + w - 1) hw
  rw [chunkCount, Nat.mul_comm]
  omega

theorem chunkCount_mul (n : Nat) {w : Nat} (hw : 0 < w) : chunkCount (w * n) w = n := by
  rw [chunkCount, Nat.add_sub_assoc hw, Nat.mul_add_div hw, Nat.div_eq_of_lt (by omega), Nat.add_zero]

theorem chunkWidth_pos (width : Nat) {d : Nat} (h : 0 < d) : 0 < chunkWidth width d := by
  unfold chunkWidth; split <;> omega

/-- The bits of `k` steps are the chunks of the first `k` new states. -/
theorem Generator.chunks_bits (g : Generator) (w : Nat) (msb : Bool) (k x : Nat) :
    (g.chunks w msb k x).2 = (List.range k).flatMap fun j => pack (g.out (g.step^[j + 1] x)) w msb := by
  induction k generalizing x with
  | zero => rfl
  | succ k ih => simp [Generator.chunks, ih, List.range_succ_eq_map, List.flatMap_map]

theorem Generator.chunks_length (g : Generator) (w : Nat) (msb : Bool) (k x : Nat) :
    (g.chunks w msb k x).2.length = k * w := by
  simp [Generator.chunks_bits, List.length_flatMap, pack_length]

theorem Generator.run_length (g : Generator) (x0 n : Nat) {w : Nat} (hw : 0 < w) (msb : Bool) :
    (g.run x0 n w msb).2.length = n := by
  simp [Generator.run, Generator.chunks_length, le_chunkCount_mul n hw]

/-- A generator's output function is applied to new states only. -/
theorem Generator.chunks_congr {g g' : Generator} (hstep : ∀ x, g.step x = g'.step x)
    (hout : ∀ x, g.out (g'.step x) = g'.out (g'.step x)) (w : Nat) (msb : Bool) (k x : Nat) :
    g.chunks w msb k x = g'.chunks w msb k x := by
  induction k generalizing x with
  | zero => rfl
  | succ k ih => simp [Generator.chunks, ih, hstep, hout]

theorem completeGenerator_congr {g g' : Generator} (hstep : ∀ x, g.step x = g'.step x)
    (hout : ∀ x, g.out (g'.step x) = g'.out (g'.step x)) (x0 w : Nat) (msb : Bool) (s : State) :
    completeGenerator g x0 w msb s = completeGenerator g' x0 w msb s := by
  simp [completeGenerator, Generator.run, Generator.chunks_congr hstep hout]

/-! ## The loop of 41 R130 -/

/-- With fuel for the bits still to come, the loop takes ceil(n / W) steps for them. -/
theorem genLoop_eq_chunks (g : Generator) {w : Nat} (hw : 0 < w) (n : Nat) (msb : Bool) (fuel x : Nat) (bs : List Bool)
    (k : Nat) (hfuel : n - bs.length ≤ fuel) :
    Reference.genLoop g w n msb fuel x bs k =
      ((g.chunks w msb (chunkCount (n - bs.length) w) x).1,
        bs ++ (g.chunks w msb (chunkCount (n - bs.length) w) x).2, k + chunkCount (n - bs.length) w) := by
  induction fuel generalizing x bs k with
  | zero => simp [Reference.genLoop, Nat.le_zero.1 hfuel, chunkCount_zero hw, Generator.chunks]
  | succ fuel ih =>
    rw [Reference.genLoop]
    by_cases hlt : bs.length < n
    · have hlen : n - (bs ++ pack (g.out (g.step x)) w msb).length = n - bs.length - w := by
        rw [List.length_append, pack_length, Nat.sub_add_eq]
      rw [if_pos hlt, ih _ _ _ (by omega), hlen, chunkCount_of_pos (n := n - bs.length) (by omega) hw]
      simp [Generator.chunks, Nat.add_assoc, Nat.add_comm 1]
    · have hdone : n - bs.length = 0 := by omega
      simp [hlt, hdone, chunkCount_zero hw, Generator.chunks]

/-- The model's run is the loop of 41 R130 (log entry 19). -/
theorem gen_eq_run (g : Generator) (x0 n : Nat) {w : Nat} (hw : 0 < w) (msb : Bool) :
    Reference.gen g x0 n w msb = ((g.run x0 n w msb).1, (g.run x0 n w msb).2, chunkCount n w) := by
  simp [Reference.gen, genLoop_eq_chunks g hw n msb n x0 [] 0 (by simp), Generator.run]

/-! ## The completion of a generator command -/

/-- The completion of a generator command ends as 41 R130 says. -/
theorem completeGenerator_ends (g : Generator) (x0 : Nat) {w : Nat} (hw : 0 < w) (msb : Bool) (s : State) :
    ∃ t, completeGenerator g x0 w msb s = .next t ∧ Reference.generatorEnds g x0 w msb s t := by
  refine ⟨_, rfl, ?_⟩
  have hlen := g.run_length x0 s.op.nbits.toNat hw msb
  have hout := Memory.writeSeq_sameOutside s.bitmem s.op.dst.toNat (g.run x0 s.op.nbits.toNat w msb).2
  rw [hlen] at hout
  simp only [Reference.generatorEnds, gen_eq_run g x0 s.op.nbits.toNat hw msb]
  exact ⟨State.complete_completedFrom s _, rfl, rfl, rfl, rfl, rfl, hlen, Memory.writeSeq_holds _ _ _, hout⟩

/-! With a command in flight each generator command completes, with its own generator and initial state. -/

theorem exec_genLcg_busy {s : State} (h : s.busy = true) (lsbf sa : Bool) (width : Nat) :
    exec (.genLcg lsbf sa width) s = completeGenerator (lcgGenerator s.op) (s.op.seed.toNat % s.op.modulus)
      (chunkWidth width (bitlen s.op.modulus)) (!lsbf) s := by
  simp [exec, execGenLcg, h]

theorem exec_genPm_busy {s : State} (h : s.busy = true) (lsbf sa : Bool) (width : Nat) :
    exec (.genPm lsbf sa width) s =
      completeGenerator (pmGenerator s.cfg) (pmSeed s.op.seed.toNat) (chunkWidth width 31) (!lsbf) s := by
  simp [exec, execGenPm, h]

theorem exec_genPcg32_busy {s : State} (h : s.busy = true) (lsbf sa : Bool) (width : Nat) :
    exec (.genPcg32 lsbf sa width) s = completeGenerator (pcgGenerator (pcgInc (s.op.pcgSeed sa).2))
      (pcgInit (pcgInc (s.op.pcgSeed sa).2) (s.op.pcgSeed sa).1) (chunkWidth width 32) (!lsbf) s := by
  simp [exec, execGenPcg32, h]

theorem exec_genSm64_busy {s : State} (h : s.busy = true) (lsbf sa : Bool) (width : Nat) :
    exec (.genSm64 lsbf sa width) s =
      completeGenerator smGenerator (s.op.smSeed sa) (chunkWidth width 64) (!lsbf) s := by
  simp [exec, execGenSm64, h]

/-- OP and PM_MULT alone choose the generator, its initial state and its chunks (41 R134). -/
theorem exec_generator_of_operands {i : Instr}
    (hi : ∃ l a w, i = .genLcg l a w ∨ i = .genPm l a w ∨ i = .genPcg32 l a w ∨ i = .genSm64 l a w)
    (o : OpSet) (mult : Nat) :
    ∃ g x0 w msb, 0 < w ∧ ∀ s : State, s.busy = true → s.op = o → s.cfg.pmMult = mult →
      exec i s = completeGenerator g x0 w msb s := by
  obtain ⟨l, a, width, rfl | rfl | rfl | rfl⟩ := hi
  · exact ⟨_, _, _, _, chunkWidth_pos _ (Nat.succ_pos _), fun s hb ho _ => ho ▸ exec_genLcg_busy hb l a width⟩
  · refine ⟨{ step := schrageStep mult, out := id }, pmSeed o.seed.toNat, chunkWidth width 31, !l,
      chunkWidth_pos _ (by decide), fun s hb ho hm => ?_⟩
    rw [exec_genPm_busy hb, ho, pmGenerator, hm]
    rfl
  · exact ⟨_, _, _, _, chunkWidth_pos _ (d := 32) (by decide),
      fun s hb ho _ => ho ▸ exec_genPcg32_busy hb l a width⟩
  · exact ⟨_, _, _, _, chunkWidth_pos _ (d := 64) (by decide),
      fun s hb ho _ => ho ▸ exec_genSm64_busy hb l a width⟩

/-! ## GEN_LCG -/

/-- bitlen(m) is the least W with m < 2^W (00_scope R15). -/
theorem lt_two_pow_iff_bitlen_le {m : Nat} (hm : m ≠ 0) (k : Nat) : m < 2 ^ k ↔ bitlen m ≤ k :=
  (Nat.log2_lt hm).symm

theorem OpSet.modulus_ne_zero (o : OpSet) : o.modulus ≠ 0 := by
  unfold OpSet.modulus; split <;> omega

/-! ## GEN_PCG32 -/

theorem pcgStep_lt (inc x : Nat) : pcgStep inc x < 2 ^ 64 := Nat.mod_lt _ (by decide)

/-- rotr32 is the rotation of a 32-bit register, for amounts below 32 (00_scope R10). -/
theorem rotr32_toNat (v : Word) {r : Nat} (hr : r < 32) : rotr32 v.toNat r = (v.rotateRight r).toNat := by
  have hlow : v.toNat >>> r < 2 ^ 32 := Nat.lt_of_le_of_lt (Nat.shiftRight_le _ _) v.isLt
  rw [rotr32, Nat.or_mod_two_pow, Nat.mod_eq_of_lt hlow, BitVec.toNat_rotateRight, Nat.mod_eq_of_lt hr]

/-- perm(s) is the permutation on registers of 64 and 32 bits (41 R140). -/
theorem pcgPerm_toNat (x : Dword) : pcgPerm x.toNat = (Reference.pcgOutput x).toNat := by
  have hrot : (x >>> 59).toNat < 32 := by
    rw [BitVec.toNat_ushiftRight, Nat.shiftRight_eq_div_pow]
    omega
  rw [Reference.pcgOutput, ← rotr32_toNat _ hrot]
  simp [pcgPerm]

/-- The output of a state below 2^64. -/
theorem pcgPerm_of_lt {x : Nat} (hx : x < 2 ^ 64) : pcgPerm x = (Reference.pcgOutput (BitVec.ofNat 64 x)).toNat := by
  rw [← pcgPerm_toNat, BitVec.toNat_ofNat, Nat.mod_eq_of_lt hx]

/-! ## GEN_SM64 -/

/-- A multiply-xorshift round on a 64-bit register (41 R143). -/
theorem xorshiftMul_toNat (z c : Dword) (k : Nat) :
    ((z ^^^ (z >>> k)) * c).toNat = (z.toNat ^^^ (z.toNat >>> k)) * c.toNat % 2 ^ 64 := by
  rw [BitVec.toNat_mul, BitVec.toNat_xor, BitVec.toNat_ushiftRight]

/-- mix(x) is the mixing function on a 64-bit register (41 R143). -/
theorem smMix_toNat (x : Dword) : smMix x.toNat = (Reference.smOutput x).toNat := by
  rw [Reference.smOutput, BitVec.toNat_xor, BitVec.toNat_ushiftRight, xorshiftMul_toNat, xorshiftMul_toNat]
  rfl

/-- The output of a state below 2^64. -/
theorem smMix_of_lt {x : Nat} (hx : x < 2 ^ 64) : smMix x = (Reference.smOutput (BitVec.ofNat 64 x)).toNat := by
  rw [← smMix_toNat, BitVec.toNat_ofNat, Nat.mod_eq_of_lt hx]

end Sys2Proof.Machine
end

section
/-! The step of Schrage for GEN_PM (41 R137 to R139). -/

namespace Sys2Proof.Machine

/-- t of 41 R138: a·(x mod q) - r·(x div q), with q = m div a and r = m mod a. -/
def schrageTerm (a x : Nat) : Int :=
  (a : Int) * (x % (pmModulus / a) : Nat) - (pmModulus % a : Nat) * (x / (pmModulus / a) : Nat)

/-- Schrage's step by its term (41 R138). -/
theorem schrageStep_eq (a x : Nat) :
    schrageStep a x =
      if schrageTerm a x ≤ 0 then (schrageTerm a x + pmModulus).toNat else (schrageTerm a x).toNat := by
  have hterm : ((a * (x % (pmModulus / a)) : Nat) : Int) - (pmModulus % a * (x / (pmModulus / a)) : Nat) =
      schrageTerm a x := by simp [schrageTerm]
  rw [← hterm]
  rfl

theorem pmModulus_prime : pmModulus.Prime :=
  lucas_lehmer_sufficiency 31 (by decide) (by norm_num)

/-- The term differs from the product by a multiple of m: m = a·q + r and x = q·(x div q) + x mod q. -/
theorem schrageTerm_eq (a x : Nat) :
    schrageTerm a x = a * x - pmModulus * (x / (pmModulus / a) : Nat) := by
  have hm : (a * (pmModulus / a : Nat) + (pmModulus % a : Nat) : Int) = pmModulus := by
    exact_mod_cast Nat.div_add_mod pmModulus a
  have hx : ((pmModulus / a : Nat) * (x / (pmModulus / a) : Nat) + (x % (pmModulus / a) : Nat) : Int) = x := by
    exact_mod_cast Nat.div_add_mod x (pmModulus / a)
  rw [schrageTerm]
  linear_combination (a : Int) * hx - ((x / (pmModulus / a) : Nat) : Int) * hm

/-- With r < q the term lies strictly between -m and m. -/
theorem schrageTerm_bounds {a x : Nat} (ha : 0 < a) (hr : pmModulus % a < pmModulus / a) (hx : x < pmModulus) :
    -(pmModulus : Int) < schrageTerm a x ∧ schrageTerm a x < pmModulus := by
  have hpos : a * (x % (pmModulus / a)) < pmModulus :=
    calc a * (x % (pmModulus / a)) < a * (pmModulus / a) :=
          Nat.mul_lt_mul_of_pos_left (Nat.mod_lt x (by omega)) ha
      _ ≤ pmModulus := Nat.mul_div_le ..
  have hneg : pmModulus % a * (x / (pmModulus / a)) < pmModulus :=
    calc pmModulus % a * (x / (pmModulus / a)) ≤ pmModulus / a * (x / (pmModulus / a)) :=
          Nat.mul_le_mul_right _ hr.le
      _ ≤ x := Nat.mul_div_le ..
      _ < pmModulus := hx
  simp only [schrageTerm, ← Nat.cast_mul]
  omega

/-- The term is not 0: m is prime and divides neither a nor x. -/
theorem schrageTerm_ne_zero {a x : Nat} (ha : 0 < a) (ham : a < pmModulus) (hx : 0 < x ∧ x < pmModulus) :
    schrageTerm a x ≠ 0 := by
  intro h
  have hdvd : pmModulus ∣ a * x := by
    rw [schrageTerm_eq, sub_eq_zero] at h
    exact ⟨_, by exact_mod_cast h⟩
  rcases pmModulus_prime.dvd_mul.1 hdvd with h | h
  · exact absurd (Nat.le_of_dvd ha h) (by omega)
  · exact absurd (Nat.le_of_dvd hx.1 h) (by omega)

/-- Schrage's step is the product modulo m (41 R139). -/
theorem schrageStep_eq_mod {a x : Nat} (ha : 0 < a) (ham : a < pmModulus) (hr : pmModulus % a < pmModulus / a)
    (hx : 0 < x ∧ x < pmModulus) : schrageStep a x = a * x % pmModulus := by
  obtain ⟨hlow, hhigh⟩ := schrageTerm_bounds ha hr hx.2
  have hne := schrageTerm_ne_zero ha ham hx
  have hmod : ((a * x : Nat) : Int) % pmModulus = schrageTerm a x % pmModulus := by
    simp [schrageTerm_eq]
  apply Int.ofNat_inj.1
  rw [Int.natCast_emod, hmod, schrageStep_eq]
  split
  · rw [← Int.add_emod_right, Int.emod_eq_of_lt (by omega) (by omega), Int.toNat_of_nonneg (by omega)]
  · rw [Int.emod_eq_of_lt (by omega) hhigh, Int.toNat_of_nonneg (by omega)]

/-- Schrage's step stays in [1, m-1] (41 R139). -/
theorem schrageStep_mem {a x : Nat} (ha : 0 < a) (ham : a < pmModulus) (hr : pmModulus % a < pmModulus / a)
    (hx : 0 < x ∧ x < pmModulus) : 0 < schrageStep a x ∧ schrageStep a x < pmModulus := by
  obtain ⟨hlow, hhigh⟩ := schrageTerm_bounds ha hr hx.2
  have hne := schrageTerm_ne_zero ha ham hx
  rw [schrageStep_eq]
  split <;> omega

/-- Every state of GEN_PM stays in [1, m-1] (41 R139). -/
theorem schrageStep_iterate_mem {a x : Nat} (ha : 0 < a) (ham : a < pmModulus) (hr : pmModulus % a < pmModulus / a)
    (hx : 0 < x ∧ x < pmModulus) (k : Nat) : 0 < (schrageStep a)^[k] x ∧ (schrageStep a)^[k] x < pmModulus := by
  induction k with
  | zero => exact hx
  | succ k ih =>
    rw [Function.iterate_succ_apply']
    exact schrageStep_mem ha ham hr ih

end Sys2Proof.Machine
end

section
/-! The obligations about the linear-congruential generators (41_lcg_generators.md). -/

open Sys2Proof Sys2Proof.Machine

/-- Settles O14: `exec_idle` issues each command with its own checks, whose first failure decides. -/
theorem generatorIssue : Obligations.GeneratorIssue := by
  unfold Obligations.GeneratorIssue
  intro s lsbf sa width hb _
  exact ⟨(exec_idle hb (.genLcg lsbf sa width) nofun).trans (issue_seededChecks _ sa s),
    (exec_idle hb (.genPm lsbf sa width) nofun).trans (issue_seededChecks _ sa s),
    (exec_idle hb (.genPcg32 lsbf sa width) nofun).trans (issue_defaultSeedChecks _ s),
    (exec_idle hb (.genSm64 lsbf sa width) nofun).trans (issue_defaultSeedChecks _ s)⟩

/-- Settles O20: the default width is the least one by `lt_two_pow_iff_bitlen_le`. -/
theorem lcgCompletes : Obligations.LcgCompletes := by
  unfold Obligations.LcgCompletes
  intro s lsbf sa width w hflight m hw
  have hwidth : w = chunkWidth width (bitlen m) := by
    unfold chunkWidth
    split at hw
    · next h =>
      obtain ⟨hlt, hleast⟩ := hw
      rw [if_pos h]
      exact Nat.le_antisymm (hleast _ ((lt_two_pow_iff_bitlen_le s.op.modulus_ne_zero _).2 le_rfl))
        ((lt_two_pow_iff_bitlen_le s.op.modulus_ne_zero _).1 hlt)
    · next h => rw [if_neg h, hw]
  rw [exec_genLcg_busy (State.busy_of_inFlight hflight), hwidth]
  exact completeGenerator_ends _ _ (chunkWidth_pos _ (Nat.succ_pos _)) _ s

/-- Settles O21: the machine's step is the one of the term by `schrageStep_eq`. -/
theorem parkMillerCompletes : Obligations.ParkMillerCompletes := by
  unfold Obligations.ParkMillerCompletes
  intro s lsbf sa width hflight m q r step
  have hseed : pmSeed s.op.seed.toNat = max 1 (s.op.seed.toNat % m) := by
    have hm : pmModulus = m := rfl
    rw [pmSeed, hm]
    split <;> omega
  rw [exec_genPm_busy (State.busy_of_inFlight hflight), hseed,
    completeGenerator_congr (g := pmGenerator s.cfg) (g' := { step := step, out := fun x => x })
      (schrageStep_eq s.cfg.pmMult) (fun _ => rfl)]
  exact completeGenerator_ends _ _ (chunkWidth_pos _ (by decide)) _ s

/-- Settles O22: the term of Schrage's step is the product less a multiple of m, lies between -m and m, and is not 0
since m is prime. -/
theorem schrageStepIsTheModularProduct : Obligations.SchrageStepIsTheModularProduct := by
  unfold Obligations.SchrageStepIsTheModularProduct
  intro cfg hvalid x hx hxm
  obtain ⟨-, -, -, -, ha, ham, hr⟩ := hvalid
  have hlt : cfg.pmMult < pmModulus := by unfold pmModulus; omega
  have hpos : 0 < cfg.pmMult := by omega
  have hmem : 0 < x ∧ x < pmModulus := ⟨hx, Nat.lt_succ_of_le hxm⟩
  have hiter (k : Nat) : 1 ≤ (schrageStep cfg.pmMult)^[k] x ∧ (schrageStep cfg.pmMult)^[k] x ≤ 2147483646 :=
    (schrageStep_iterate_mem hpos hlt hr hmem k).imp_right Nat.le_of_lt_succ
  exact ⟨schrageStep_eq_mod hpos hlt hr hmem, (hiter 1).1, (hiter 1).2, hiter, schrageTerm_ne_zero hpos hlt hmem⟩

/-- Settles O23: every new state is below 2^64, where the output is `pcgPerm_of_lt`; SA chooses the seed. -/
theorem pcgCompletes : Obligations.PcgCompletes := by
  unfold Obligations.PcgCompletes
  intro s lsbf sa width hflight init sequence inc step
  have hstart : pcgInit (pcgInc (s.op.pcgSeed sa).2) (s.op.pcgSeed sa).1 = step ((step 0 + init) % 2 ^ 64) := by
    cases sa <;> rfl
  have hinc : pcgInc (s.op.pcgSeed sa).2 = inc := by cases sa <;> rfl
  rw [exec_genPcg32_busy (State.busy_of_inFlight hflight), hstart, hinc,
    completeGenerator_congr (g := pcgGenerator inc)
      (g' := { step := step, out := fun x => (Reference.pcgOutput (BitVec.ofNat 64 x)).toNat })
      (fun _ => rfl) (fun x => pcgPerm_of_lt (pcgStep_lt inc x))]
  exact completeGenerator_ends _ _ (chunkWidth_pos _ (by decide)) _ s

/-- Settles O24: the n chunks are the outputs of the first n new states (`Generator.chunks_bits`), which the reference
reaches one output later. -/
theorem pcgIsTheReferenceShiftedByOne : Obligations.PcgIsTheReferenceShiftedByOne := by
  unfold Obligations.PcgIsTheReferenceShiftedByOne
  refine ⟨fun init sequence n => ?_, by decide, by decide⟩
  have hlen := Generator.chunks_length (pcgGenerator (pcgInc sequence)) 32 true n (pcgInit (pcgInc sequence) init)
  rw [Generator.run, chunkCount_mul n (by decide), List.take_of_length_le (by rw [hlen, Nat.mul_comm]),
    Generator.chunks_bits]
  rfl

/-- Settles O25: every new state is below 2^64, where the output is `smMix_of_lt`. -/
theorem splitMixCompletes : Obligations.SplitMixCompletes := by
  unfold Obligations.SplitMixCompletes
  intro s lsbf sa width hflight
  rw [exec_genSm64_busy (State.busy_of_inFlight hflight),
    completeGenerator_congr (g := smGenerator)
      (g' := { step := smGenerator.step, out := fun x => (Reference.smOutput (BitVec.ofNat 64 x)).toNat })
      (fun _ => rfl) (fun x => smMix_of_lt (Nat.mod_lt (x + smGamma) (by decide)))]
  exact completeGenerator_ends _ _ (chunkWidth_pos _ (by decide)) _ s

/-- Settles O26: both completions are the loop of 41 R130 for the generator, state and chunks that OP and PM_MULT
choose. -/
theorem generatorsDependOnlyOnOperands : Obligations.GeneratorsDependOnlyOnOperands := by
  unfold Obligations.GeneratorsDependOnlyOnOperands
  intro i s1 s2 hi h1 h2 hop hmult
  obtain ⟨g, x0, w, msb, hw, hexec⟩ := exec_generator_of_operands hi s1.op s1.cfg.pmMult
  obtain ⟨t1, ht1, -, hres1, hlo1, hhi1, helapsed, -, hlen, hbits1, hsame⟩ := completeGenerator_ends g x0 hw msb s1
  obtain ⟨t2, ht2, -, hres2, hlo2, hhi2, -, -, -, hbits2, -⟩ := completeGenerator_ends g x0 hw msb s2
  rw [← hop] at hres2 hlo2 hhi2 hbits2
  refine ⟨t1, t2, (hexec s1 (State.busy_of_inFlight h1) rfl rfl).trans ht1,
    (hexec s2 (State.busy_of_inFlight h2) hop.symm hmult.symm).trans ht2,
    hres1.trans hres2.symm, hlo1.trans hlo2.symm, hhi1.trans hhi2.symm, fun j hj => ?_, fun hzero => ?_⟩
  · rw [hbits1 j (by omega), hbits2 j (by omega)]
    exact ⟨rfl, rfl⟩
  · have hn : s1.op.nbits.toNat = 0 := by rw [hzero]; rfl
    rw [hn] at hres1 helapsed hsame
    exact ⟨hres1, helapsed, fun a => hsame a (by omega)⟩

end

section
/-! The LFSR generator (42_lfsr_generator.md): its issue, the recurrence of 42 R170 and how GEN_LFSR completes. -/

namespace Sys2Proof.Machine

open Reference

/-! ## The recurrence (42 R170) -/

theorem Reference.xorSum_congr {f g : Nat → Bool} {n : Nat} (h : ∀ i, i < n → f i = g i) :
    xorSum f n = xorSum g n := by
  induction n with
  | zero => rfl
  | succ n ih => rw [xorSum, xorSum, ih fun i hi => h i (by omega), h n (by omega)]

/-- The exclusive or may start with its first term. -/
theorem Reference.xorSum_succ_first (f : Nat → Bool) (n : Nat) :
    xorSum f (n + 1) = (f 0 ^^ xorSum (fun i => f (i + 1)) n) := by
  induction n with
  | zero => simp [xorSum]
  | succ n ih => rw [xorSum, ih, xorSum, Bool.xor_assoc]

@[simp] theorem Reference.xorSum_false (n : Nat) : xorSum (fun _ => false) n = false := by
  induction n with
  | zero => rfl
  | succ n ih => rw [xorSum, ih]; rfl

/-- The feedback of the first `l` coefficients, with 0 for the coefficients and the bits that are not there. -/
theorem feedback_take (c p : List Bool) (l : Nat) :
    feedback (c.take l) p = xorSum (fun i => c.getD i false && p.getD i false) l := by
  induction l generalizing c p with
  | zero => simp [feedback, xorSum]
  | succ l ih =>
    rw [xorSum_succ_first]
    cases c with
    | nil => simp [feedback]
    | cons a c =>
      cases p with
      | nil => simp [feedback]
      | cons b p => simpa [feedback] using congrArg ((a && b) ^^ ·) (ih c p)

/-- The feedback over the past of a sequence is the right side of the recurrence for its next bit. -/
theorem feedback_reverse (c s : List Bool) {l : Nat} (h : l ≤ s.length) :
    feedback (c.take l) s.reverse = xorSum (fun i => c.getD i false && s.getD (s.length - (i + 1)) false) l := by
  rw [feedback_take]
  exact xorSum_congr fun i hi => by rw [List.getD_reverse i (by omega), Nat.sub_sub, Nat.add_comm 1]

/-- A sequence of no more bits than the register is an initial state: any coefficients generate it. -/
theorem Reference.Generates.of_length_le {l : Nat} (c : Nat → Bool) {s : List Bool} (h : s.length ≤ l) :
    Generates l c s :=
  fun j h1 h2 => by omega

/-- The recurrence goes on with one more bit. -/
theorem Reference.Generates.concat {l : Nat} {c : Nat → Bool} {s : List Bool} {b : Bool} (h : Generates l c s)
    (hb : b = xorSum (fun i => c (i + 1) && s.getD (s.length - (i + 1)) false) l) : Generates l c (s ++ [b]) := by
  intro j hl hj
  rw [List.length_append, List.length_singleton] at hj
  have hpast : xorSum (fun i => c (i + 1) && (s ++ [b]).getD (j - (i + 1)) false) l =
      xorSum (fun i => c (i + 1) && s.getD (j - (i + 1)) false) l :=
    xorSum_congr fun i hi => by rw [List.getD_append _ _ _ _ (by omega)]
  rw [hpast]
  rcases Nat.lt_succ_iff_lt_or_eq.1 hj with hlt | rfl
  · rw [List.getD_append _ _ _ _ hlt, h j hl hlt]
  · rw [List.getD_append_right _ _ _ _ le_rfl, Nat.sub_self, List.getD_cons_zero, hb]

/-- The recurrence and the initial state determine the sequence. -/
theorem Reference.Generates.unique {l : Nat} {c c' : Nat → Bool} {s s' : List Bool} (h : Generates l c s)
    (h' : Generates l c' s') (hc : ∀ i, i < l → c (i + 1) = c' (i + 1)) (hlen : s.length = s'.length)
    (hinit : s.take l = s'.take l) : s = s' := by
  have hbits (j : Nat) : j < s.length → s.getD j false = s'.getD j false := by
    induction j using Nat.strongRecOn with
    | ind j ih =>
      intro hj
      rcases Nat.lt_or_ge j l with hjl | hjl
      · simpa [List.getD_eq_getElem?_getD, List.getElem?_take_of_lt hjl] using congrArg (·.getD j false) hinit
      · rw [h j hjl hj, h' j hjl (by omega)]
        exact xorSum_congr fun i hi => by rw [hc i hi, ih _ (by omega) (by omega)]
  refine List.ext_getElem hlen fun j h1 h2 => ?_
  simpa [List.getD_eq_getElem?_getD, h1, h2] using hbits j h1

/-! ## The output of GEN_LFSR -/

/-- `k` more bits in front of the past, the newest first. -/
theorem lfsrExtend_eq_append (c : List Bool) (k : Nat) (past : List Bool) :
    ∃ bs, bs.length = k ∧ lfsrExtend c k past = bs ++ past := by
  induction k generalizing past with
  | zero => exact ⟨[], rfl, rfl⟩
  | succ k ih =>
    obtain ⟨bs, hlen, hbs⟩ := ih (feedback c past :: past)
    exact ⟨bs ++ [feedback c past], by simp [hlen], by simp [lfsrExtend, hbs]⟩

/-- Extending by the coefficients c_1..c_L keeps the recurrence. -/
theorem lfsrExtend_generates {c s : List Bool} (k : Nat) (hlen : c.length ≤ s.length)
    (h : Generates c.length (fun i => c.getD (i - 1) false) s) :
    Generates c.length (fun i => c.getD (i - 1) false) (lfsrExtend c k s.reverse).reverse := by
  induction k generalizing s with
  | zero => rwa [lfsrExtend, List.reverse_reverse]
  | succ k ih =>
    have hnext := feedback_reverse c s hlen
    rw [List.take_length] at hnext
    rw [lfsrExtend, ← List.reverse_concat']
    exact ih (by simp; omega) (h.concat hnext)

/-- GEN_LFSR's output is the first `n` bits of a sequence that starts with the initial state and obeys the recurrence of
42 R170. -/
theorem lfsrOutput_spec {c init : List Bool} (n : Nat) (hlen : c.length = init.length) :
    ∃ seq : List Bool, lfsrOutput c init n = seq.take n ∧ seq.length = max n init.length ∧ seq.take init.length = init ∧
      Generates init.length (fun i => c.getD (i - 1) false) seq := by
  obtain ⟨bs, hbs, hext⟩ := lfsrExtend_eq_append c (n - init.length) init.reverse
  refine ⟨(lfsrExtend c (n - init.length) init.reverse).reverse, rfl, ?_, ?_, ?_⟩
  · simp [hext, hbs]
    omega
  · simp [hext]
  · rw [← hlen]
    exact lfsrExtend_generates _ hlen.le (Generates.of_length_le _ hlen.ge)

/-- STATE holds the last 64 emitted bits, the most recent at bit 0, with 0 where fewer were emitted (42 R172). -/
theorem lfsrState_testBit (bits : List Bool) {i : Nat} (hi : i < 64) :
    (lfsrState bits).testBit i = (decide (i < bits.length) && bits.getD (bits.length - 1 - i) false) := by
  have htake : (bits.reverse.take 64).getD i false = bits.reverse.getD i false := by
    simp [List.getD_eq_getElem?_getD, hi]
  rw [lfsrState, natOfBits_testBit, htake]
  by_cases hlt : i < bits.length
  · rw [List.getD_reverse i hlt]
    simp [hlt]
  · simp [List.getD_eq_getElem?_getD, hlt]

/-! ## The completion of GEN_LFSR -/

/-- The two STATE registers hold the low 64 bits of the state a completion writes (10_state R42). -/
theorem State.complete_state_getLsbD (s : State) (e : Effects) {i : Nat} (hi : i < 64) :
    ((s.complete e).stateHi ++ (s.complete e).stateLo).getLsbD i = e.state.testBit i := by
  simp only [BitVec.getLsbD_append, State.complete_stateHi, State.complete_stateLo, BitVec.getLsbD_ofNat,
    Nat.testBit_mod_two_pow, Nat.testBit_div_two_pow]
  by_cases hlow : i < 32
  · simp [hlow]
  · have hhigh : i - 32 < 32 := by omega
    have hback : i - 32 + 32 = i := by omega
    simp [hlow, hhigh, hback]

/-- What the completion of GEN_LFSR writes (42 R170). -/
def lfsrEffects (init c : List Bool) (s : State) : Effects where
  res     := { res0 := s.op.nbits, res1 := s.op.lfsrL }
  state   := lfsrState (lfsrOutput c init s.op.nbits.toNat)
  elapsed := s.generatorElapsed
  bitmem  := s.bitmem.writeSeq s.op.dst.toNat (lfsrOutput c init s.op.nbits.toNat)
  polymem := s.polymem

/-- Reading a region all of whose bits are marked goes on with them. -/
theorem withBits_ok {s : State} {sp : Space} (hm : (s.mem sp).wf) {a n : Nat} {bs : List Bool} (hn : bs.length = n)
    (h : holdsBits (s.mem sp) a bs) (k : List Bool → Host.Outcome State Fault Refusal) :
    withBits sp a n s k = k bs := by
  rw [withBits, ← hn, Memory.readSeq_ok hm h]

/-- With a command in flight and its input bits marked, GEN_LFSR completes. -/
theorem exec_genLfsr_busy {s : State} (h : s.busy = true) (lsbf : Bool) (width : Nat) {init c : List Bool}
    (hb : s.bitmem.wf) (hp : s.polymem.wf) (hilen : init.length = s.op.lfsrL.toNat)
    (hinit : holdsBits s.bitmem s.op.src.toNat init) (hclen : c.length = s.op.lfsrL.toNat)
    (hc : holdsBits s.polymem 1 c) :
    exec (.genLfsr lsbf width) s = .next (s.complete (lfsrEffects init c s)) := by
  simp only [exec, execGenLfsr, h, if_true]
  rw [withBits_ok (sp := .bitmem) hb hilen hinit, withBits_ok (sp := .polymem) hp hclen hc]
  simp [lfsrEffects, resultWord]

/-! ## The issue of GEN_LFSR -/

/-- OP.SRC is SRC at issue (10_state R50). -/
@[simp] theorem OpSet.latch_src (r : OperandRegs) (w : Word) : (OpSet.latch r w).src = r.src := rfl

/-- OP.LFSR_L is LFSR_L at issue (10_state R50). -/
@[simp] theorem OpSet.latch_lfsrL (r : OperandRegs) (w : Word) : (OpSet.latch r w).lfsrL = r.lfsrL := rfl

end Sys2Proof.Machine

end

section
/-! Berlekamp-Massey (45 R216) generates what it read (45 R217), as power series over GF(2). -/

namespace Sys2Proof.Machine

open Reference

/-! ## Bits as power series over GF(2) -/

/-- A bit in GF(2). -/
def bitOf (b : Bool) : ZMod 2 := if b then 1 else 0

@[simp] theorem bitOf_false : bitOf false = 0 := rfl
@[simp] theorem bitOf_true : bitOf true = 1 := rfl

theorem bitOf_xor (a b : Bool) : bitOf (a ^^ b) = bitOf a + bitOf b := by revert a b; decide
theorem bitOf_and (a b : Bool) : bitOf (a && b) = bitOf a * bitOf b := by revert a b; decide
theorem bitOf_eq_zero {b : Bool} : bitOf b = 0 ↔ b = false := by revert b; decide

theorem bitOf_xorSum (f : Nat → Bool) (n : Nat) : bitOf (xorSum f n) = ∑ i ∈ Finset.range n, bitOf (f i) := by
  induction n with
  | zero => rfl
  | succ n ih => rw [xorSum, bitOf_xor, ih, Finset.sum_range_succ]

/-- The power series of a sequence of bits. -/
def bitSeries (f : Nat → Bool) : PowerSeries (ZMod 2) := PowerSeries.mk fun i => bitOf (f i)

/-- The series 1 + x·S(x) of a sequence: its bits with a 1 in front, as if the bit at -1 were 1, where Berlekamp-Massey
starts (m = -1 with B = 1). -/
def startedSeries (s : List Bool) : PowerSeries (ZMod 2) := bitSeries fun j => (true :: s).getD j false

/-- C + x^k·B on coefficients, the new C of an iteration with discrepancy 1 (45 R216). -/
def addShifted (c b : Nat → Bool) (k : Nat) : Nat → Bool := fun i => c i ^^ (decide (k ≤ i) && b (i - k))

theorem bitSeries_addShifted (c b : Nat → Bool) (k : Nat) :
    bitSeries (addShifted c b k) = bitSeries c + PowerSeries.X ^ k * bitSeries b := by
  ext i
  rw [map_add, PowerSeries.coeff_X_pow_mul']
  by_cases h : k ≤ i <;> simp [bitSeries, addShifted, bitOf_xor, h]

/-- The discrepancy of iteration `n` (45 R216). -/
def discrepancyAt (s : List Bool) (n l : Nat) (c : Nat → Bool) : Bool :=
  s.getD n false ^^ xorSum (fun i => c (i + 1) && s.getD (n - (i + 1)) false) l

/-- For a C of degree at most L with c_0 = 1, the coefficient of C·(1 + x·S) at j + 1 is the discrepancy at s_j. -/
theorem coeff_mul_startedSeries {c : Nat → Bool} {l j : Nat} (s : List Bool) (h0 : c 0 = true)
    (hdeg : ∀ i, l < i → c i = false) (hl : l ≤ j) :
    PowerSeries.coeff (j + 1) (bitSeries c * startedSeries s) = bitOf (discrepancyAt s j l c) := by
  have hterms : ∑ i ∈ Finset.range (j + 1), bitOf (c (i + 1)) * bitOf ((true :: s).getD (j - i) false) =
      ∑ i ∈ Finset.range l, bitOf (c (i + 1) && s.getD (j - (i + 1)) false) := by
    rw [← Finset.sum_subset (Finset.range_subset_range.2 (Nat.le_succ_of_le hl)) fun i _ hi => ?_]
    · refine Finset.sum_congr rfl fun i hi => ?_
      have hback : j - i = j - (i + 1) + 1 := by have := Finset.mem_range.1 hi; omega
      rw [bitOf_and, hback, List.getD_cons_succ]
    · rw [hdeg (i + 1) (by have := Finset.mem_range.not.1 hi; omega), bitOf_false, zero_mul]
  rw [PowerSeries.coeff_mul, Finset.Nat.sum_antidiagonal_eq_sum_range_succ_mk, Finset.sum_range_succ']
  simp only [discrepancyAt, bitSeries, startedSeries, PowerSeries.coeff_mk, Nat.add_sub_add_right, h0, bitOf_xor,
    bitOf_xorSum]
  rw [hterms]
  simp [add_comm]

/-! ## The invariant of the iterations -/

/-- What holds before iteration `n` on the sequence `s`, with `k` = m + 1: C, of degree at most L, generates the bits
before s_n; B, of degree at most k - L, generates the bits before s_m and fails at s_m. -/
structure MasseyInv (s : List Bool) (n k l : Nat) (c b : Nat → Bool) : Prop where
  k_le : k ≤ n
  l_le : l ≤ k
  c_zero : c 0 = true
  c_degree : ∀ i, l < i → c i = false
  b_degree : ∀ i, k - l < i → b i = false
  c_generates : ∀ j, l < j → j ≤ n → PowerSeries.coeff j (bitSeries c * startedSeries s) = 0
  b_generates : ∀ j, k - l < j → j < k → PowerSeries.coeff j (bitSeries b * startedSeries s) = 0
  b_fails : PowerSeries.coeff k (bitSeries b * startedSeries s) = 1

section

variable {s : List Bool} {n k l : Nat} {c b : Nat → Bool}

/-- Before the first iteration C = B = 1, L = 0 and m = -1. -/
theorem masseyInv_init (s : List Bool) : MasseyInv s 0 0 0 (fun i => i == 0) (fun i => i == 0) where
  k_le := le_rfl
  l_le := le_rfl
  c_zero := rfl
  c_degree i hi := by simpa using Nat.ne_of_gt hi
  b_degree i hi := by simpa using Nat.ne_of_gt hi
  c_generates j hj hj' := by omega
  b_generates j hj hj' := by omega
  b_fails := by simp [PowerSeries.coeff_mul, bitSeries, startedSeries]

theorem MasseyInv.l_le_n (h : MasseyInv s n k l c b) : l ≤ n := h.l_le.trans h.k_le

theorem MasseyInv.coeff_discrepancy (h : MasseyInv s n k l c b) :
    PowerSeries.coeff (n + 1) (bitSeries c * startedSeries s) = bitOf (discrepancyAt s n l c) :=
  coeff_mul_startedSeries s h.c_zero h.c_degree h.l_le_n

/-- With the discrepancy 0, C goes on as it is. -/
theorem MasseyInv.keep (h : MasseyInv s n k l c b) (hd : discrepancyAt s n l c = false) : MasseyInv s (n + 1) k l c b :=
  { h with
    k_le := Nat.le_succ_of_le h.k_le
    c_generates := fun j hl hn => by
      rcases Nat.lt_succ_iff_lt_or_eq.1 (Nat.lt_succ_of_le hn) with hlt | rfl
      · exact h.c_generates j hl (by omega)
      · rw [h.coeff_discrepancy, hd, bitOf_false] }

/-- With the discrepancy 1, x^(n-m)·B is added to C: where its degree allows, the sum generates s_n too, as the failure
of B at s_m meets that of C at s_n. -/
theorem MasseyInv.addShifted_generates (h : MasseyInv s n k l c b) (hd : discrepancyAt s n l c = true) {l' : Nat}
    (hl : l ≤ l') (hl' : n + 1 - l ≤ l') (j : Nat) (hlj : l' < j) (hjn : j ≤ n + 1) :
    PowerSeries.coeff j (bitSeries (addShifted c b (n + 1 - k)) * startedSeries s) = 0 := by
  have hk := h.k_le
  have hlk := h.l_le
  rw [bitSeries_addShifted, add_mul, map_add, mul_assoc, PowerSeries.coeff_X_pow_mul', if_pos (by omega)]
  rcases Nat.lt_succ_iff_lt_or_eq.1 (Nat.lt_succ_of_le hjn) with hlt | rfl
  · rw [h.c_generates j (by omega) (by omega), h.b_generates _ (by omega) (by omega), add_zero]
  · have hback : n + 1 - (n + 1 - k) = k := by omega
    rw [h.coeff_discrepancy, hd, hback, h.b_fails]
    decide

theorem MasseyInv.addShifted_zero (h : MasseyInv s n k l c b) : addShifted c b (n + 1 - k) 0 = true := by
  have hk := h.k_le
  have hpos : ¬n + 1 - k ≤ 0 := by omega
  simp [addShifted, h.c_zero, hpos]

theorem MasseyInv.addShifted_degree (h : MasseyInv s n k l c b) {l' : Nat} (hl : l ≤ l') (hl' : n + 1 - l ≤ l')
    (i : Nat) (hi : l' < i) : addShifted c b (n + 1 - k) i = false := by
  have hk := h.k_le
  have hlk := h.l_le
  simp [addShifted, h.c_degree i (by omega), h.b_degree (i - (n + 1 - k)) (by omega)]

/-- With the discrepancy 1 and 2·L > n, the length stays. -/
theorem MasseyInv.correct (h : MasseyInv s n k l c b) (hd : discrepancyAt s n l c = true) (hlong : n < 2 * l) :
    MasseyInv s (n + 1) k l (addShifted c b (n + 1 - k)) b :=
  { h with
    k_le := Nat.le_succ_of_le h.k_le
    c_zero := h.addShifted_zero
    c_degree := h.addShifted_degree le_rfl (by omega)
    c_generates := h.addShifted_generates hd le_rfl (by omega) }

/-- With the discrepancy 1 and 2·L ≤ n, the length becomes n + 1 - L, and the C before is the new B. -/
theorem MasseyInv.lengthen (h : MasseyInv s n k l c b) (hd : discrepancyAt s n l c = true) (hshort : 2 * l ≤ n) :
    MasseyInv s (n + 1) (n + 1) (n + 1 - l) (addShifted c b (n + 1 - k)) c where
  k_le := le_rfl
  l_le := Nat.sub_le ..
  c_zero := h.addShifted_zero
  c_degree := h.addShifted_degree (by omega) le_rfl
  b_degree i hi := h.c_degree i (by omega)
  c_generates := h.addShifted_generates hd (by omega) le_rfl
  b_generates j hj hjn := h.c_generates j (by omega) (by omega)
  b_fails := by rw [h.coeff_discrepancy, hd, bitOf_true]

/-- C generates the first `n` bits with length L. -/
theorem MasseyInv.generates (h : MasseyInv s n k l c b) (hn : s.length ≤ n) : Generates l c s := by
  intro j hl hj
  have hzero := h.c_generates (j + 1) (by omega) (by omega)
  rw [coeff_mul_startedSeries s h.c_zero h.c_degree hl, bitOf_eq_zero] at hzero
  simpa [discrepancyAt] using hzero

end

/-! ## The machine's iterations -/

@[simp] theorem polyCoeff_nil (i : Nat) : polyCoeff [] i = false := rfl

theorem polyCoeff_polyAdd (p q : List Bool) (i : Nat) :
    polyCoeff (polyAdd p q) i = (polyCoeff p i ^^ polyCoeff q i) := by
  induction p generalizing q i with
  | nil => simp [polyAdd]
  | cons a p ih =>
    cases q with
    | nil => simp [polyAdd]
    | cons b q =>
      cases i with
      | zero => rfl
      | succ i => exact ih q i

theorem polyCoeff_polyShift (k : Nat) (b : List Bool) (i : Nat) :
    polyCoeff (polyShift k b) i = (decide (k ≤ i) && polyCoeff b (i - k)) := by
  by_cases h : k ≤ i
  · simp [polyCoeff, polyShift, h, List.getD_eq_getElem?_getD, List.getElem?_append_right]
  · have hlt : i < (List.replicate k false).length := by simpa using h
    rw [polyCoeff, polyShift, List.getD_append _ _ _ _ hlt]
    simp [h, Nat.lt_of_not_le h, List.getD_eq_getElem?_getD]

/-- Adding x^k·B to C, on coefficients. -/
theorem polyCoeff_add_shift (c b : List Bool) (k : Nat) :
    polyCoeff (polyAdd c (polyShift k b)) = addShifted (polyCoeff c) (polyCoeff b) k := by
  funext i
  rw [polyCoeff_polyAdd, polyCoeff_polyShift, addShifted]

/-- The working state `st` stands before iteration `n` on the sequence `s`. -/
structure BmState.Reads (s : List Bool) (n : Nat) (st : BmState) : Prop where
  n_eq : st.n = n
  past_eq : st.past = (s.take n).reverse
  inv : ∃ k : Nat, st.m + 1 = k ∧ MasseyInv s n k st.l (polyCoeff st.c) (polyCoeff st.b)

theorem BmState.init_reads (s : List Bool) : BmState.init.Reads s 0 where
  n_eq := rfl
  past_eq := rfl
  inv := by
    refine ⟨0, rfl, ?_⟩
    have hone : polyCoeff [true] = fun i => i == 0 := by
      funext i
      cases i <;> simp [polyCoeff]
    simpa only [BmState.init, hone] using masseyInv_init s

/-- The machine's discrepancy is the one of 45 R216. -/
theorem BmState.Reads.discrepancy_eq {s : List Bool} {n : Nat} {st : BmState} (h : st.Reads s n) (hn : n < s.length) :
    st.discrepancy (s.getD n false) = discrepancyAt s n st.l (polyCoeff st.c) := by
  obtain ⟨k, -, hinv⟩ := h.inv
  have hlen : (s.take n).length = n := by simp [hn.le]
  have hl := hinv.l_le_n
  rw [BmState.discrepancy, discrepancyAt, h.past_eq, feedback_reverse _ _ (hlen.symm ▸ hl), hlen]
  congr 1
  refine xorSum_congr fun i hi => ?_
  have hlt : n - (i + 1) < n := by omega
  simp [polyCoeff, List.getD_eq_getElem?_getD, hlt]

/-- The iteration for s_n goes on to n + 1. -/
theorem BmState.Reads.next {s : List Bool} {n : Nat} {st : BmState} (h : st.Reads s n) (hn : n < s.length) :
    (st.next (s.getD n false)).Reads s (n + 1) := by
  obtain ⟨k, hm, hinv⟩ := h.inv
  have hshift : ((st.n : Int) - st.m).toNat = n + 1 - k := by have := h.n_eq; omega
  have hpast : s.getD n false :: st.past = (s.take (n + 1)).reverse := by
    rw [h.past_eq, List.take_succ_eq_append_getElem hn, List.reverse_concat']
    simp [List.getD_eq_getElem?_getD, hn]
  unfold BmState.next
  rw [h.discrepancy_eq hn, hshift, h.n_eq]
  split_ifs with hd hshort
  · exact ⟨rfl, hpast, n + 1, rfl, by rw [polyCoeff_add_shift]; exact hinv.lengthen hd hshort⟩
  · exact ⟨rfl, hpast, k, hm, by rw [polyCoeff_add_shift]; exact hinv.correct hd (by omega)⟩
  · exact ⟨rfl, hpast, k, hm, hinv.keep (by simpa using hd)⟩

/-- After the first `n` bits the working state stands before iteration `n`. -/
theorem BmState.foldl_reads (s : List Bool) {n : Nat} (hn : n ≤ s.length) :
    ((s.take n).foldl BmState.next BmState.init).Reads s n := by
  induction n with
  | zero => exact BmState.init_reads s
  | succ n ih =>
    rw [List.take_succ_eq_append_getElem (by omega), List.foldl_append]
    have hbit : s.getD n false = s[n] := by simp [List.getD_eq_getElem?_getD, Nat.lt_of_succ_le hn]
    exact hbit ▸ (ih (by omega)).next hn

/-- Berlekamp-Massey's C has c_0 = 1 and degree at most L ≤ n, and generates the sequence with length L (45 R217). -/
theorem berlekampMassey_generates (s : List Bool) :
    polyCoeff (berlekampMassey s).2 0 = true ∧
      (∀ i, (berlekampMassey s).1 < i → polyCoeff (berlekampMassey s).2 i = false) ∧
      (berlekampMassey s).1 ≤ s.length ∧
      Generates (berlekampMassey s).1 (polyCoeff (berlekampMassey s).2) s := by
  have hreads := BmState.foldl_reads s le_rfl
  rw [List.take_length] at hreads
  obtain ⟨k, -, hinv⟩ := hreads.inv
  exact ⟨hinv.c_zero, hinv.c_degree, hinv.l_le_n, hinv.generates le_rfl⟩

/-! ## The completion of BM -/

/-- What the completion of BM over `bits` writes (45 R218). -/
def bmEffects (bits : List Bool) (s : State) : Effects where
  res     :=
    { res0 := resultWord (berlekampMassey bits).1, res1 := s.op.len,
      res2 := resultWord (polyDegree (berlekampMassey bits).2) }
  elapsed := s.elapsedDraw
  bitmem  := s.bitmem
  polymem := s.polymem.writeSeq 0 ((List.range (s.op.len.toNat + 1)).map (polyCoeff (berlekampMassey bits).2))

/-- With a command in flight and its input bits marked, BM completes. -/
theorem exec_bm_busy {s : State} (h : s.busy = true) {bits : List Bool} (hb : s.bitmem.wf)
    (hlen : bits.length = s.op.len.toNat) (hbits : holdsBits s.bitmem s.op.src.toNat bits) :
    exec .bm s = .next (s.complete (bmEffects bits s)) := by
  simp only [exec, execBm, h, if_true]
  rw [withBits_ok (sp := .bitmem) hb hlen hbits]
  simp [bmEffects, resultWord]

/-- BM leaves c_0..c_n at POLYMEM bits 0..n. -/
theorem bmEffects_read (bits : List Bool) (s : State) {i : Nat} (hi : i ≤ s.op.len.toNat) :
    (bmEffects bits s).polymem.read i = some (polyCoeff (berlekampMassey bits).2 i) := by
  have hlt : i < s.op.len.toNat + 1 := by omega
  have hread := Memory.read_writeSeq_in s.polymem 0
    ((List.range (s.op.len.toNat + 1)).map (polyCoeff (berlekampMassey bits).2)) (i := i) (by simpa using hlt)
  rw [Nat.zero_add] at hread
  simpa [bmEffects, List.getD_eq_getElem?_getD, hlt] using hread

/-- c_1..c_L, the coefficients GEN_LFSR reads. -/
def tapsOf (c : List Bool) (l : Nat) : List Bool := (List.range l).map fun i => polyCoeff c (i + 1)

@[simp] theorem tapsOf_length (c : List Bool) (l : Nat) : (tapsOf c l).length = l := by simp [tapsOf]

theorem tapsOf_getD (c : List Bool) {l i : Nat} (hi : i < l) : (tapsOf c l).getD i false = polyCoeff c (i + 1) := by
  simp [tapsOf, List.getD_eq_getElem?_getD, hi]

end Sys2Proof.Machine

end

section
/-! The obligations about the LFSR generator (42_lfsr_generator.md). -/

open Sys2Proof Sys2Proof.Machine

/-- Settles O15: the first check of `lfsrChecks` that fails decides; with none the command starts. -/
theorem lfsrIssue : Obligations.LfsrIssue := by
  unfold Obligations.LfsrIssue
  intro s lsbf width hb _ t
  rw [exec_idle hb (.genLfsr lsbf width) nofun]
  simp only [issue, commandChecks, lfsrChecks, firstFailure_cons, firstFailure_nil, atMost_fails, srcInRange_fails,
    dstInRange_fails, State.prepare_cfg, State.prepare_op, OpSet.latch_lfsrL, OpSet.latch_src, OpSet.latch_dst,
    OpSet.latch_nbits]
  split_ifs <;> rfl

/-- Settles O27: the completion is `lfsrEffects`, whose output is the one of `lfsrOutput_spec`. -/
theorem lfsrCompletes : Obligations.LfsrCompletes := by
  unfold Obligations.LfsrCompletes
  intro s lsbf width init c hflight hb hp hilen hinit hclen hc n l
  obtain ⟨seq, hout, hlen, htake, hgen⟩ := lfsrOutput_spec n (hclen.trans hilen.symm)
  rw [hilen] at hlen htake hgen
  have hn : (seq.take n).length = n := by simp [hlen]
  have hwrite : (lfsrEffects init c s).bitmem = s.bitmem.writeSeq s.op.dst.toNat (seq.take n) := by
    rw [← hout]; rfl
  have hframe := Memory.writeSeq_sameOutside s.bitmem s.op.dst.toNat (seq.take n)
  rw [hn, ← hwrite] at hframe
  refine ⟨_, seq, exec_genLfsr_busy (State.busy_of_inFlight hflight) lsbf width hb hp hilen hinit hclen hc,
    State.complete_completedFrom s _, ⟨hlen, htake, hgen⟩, rfl, ?_, hframe, rfl, fun i hi => ?_, rfl⟩
  · rw [State.complete_bitmem, hwrite]
    exact Memory.writeSeq_holds _ _ _
  · have hstate : (lfsrEffects init c s).state = lfsrState (seq.take n) := by rw [← hout]; rfl
    rw [State.complete_state_getLsbD s _ hi, hstate, lfsrState_testBit _ hi, hn]
    by_cases hin : i < n
    · have hlast : n - 1 - i < n := by omega
      simp [hin, hlast, List.getD_eq_getElem?_getD]
    · simp [hin]

/-- Settles O36: the block and GEN_LFSR's sequence obey one recurrence (`berlekampMassey_generates`) from one initial
state, so they are the same. -/
theorem lfsrReplaysTheBlockOfBm : Obligations.LfsrReplaysTheBlockOfBm := by
  unfold Obligations.LfsrReplaysTheBlockOfBm
  intro s1 s2 t1 block lsbf width h1 hb1 hp1 hlen hblock hexec h2 hb2 hpoly hl hn hsrc
  have ht1 := (exec_bm_busy (State.busy_of_inFlight h1) hb1 hlen hblock).symm.trans hexec
  injection ht1 with ht1
  subst ht1
  obtain ⟨-, -, hle, hgen⟩ := berlekampMassey_generates block
  have hlval : s2.op.lfsrL.toNat = (berlekampMassey block).1 := by
    have hres : s2.op.lfsrL = resultWord (berlekampMassey block).1 := hl
    rw [hres, resultWord, BitVec.toNat_ofNat, Nat.mod_eq_of_lt (by omega)]
  have hinit : holdsBits s2.bitmem s2.op.src.toNat (block.take s2.op.lfsrL.toNat) := by
    intro i hi
    have hlt : i < s2.op.lfsrL.toNat ∧ i < block.length := by simpa using hi
    obtain ⟨hil, hib⟩ := hlt
    rw [hsrc i hib]
    simp [List.getD_eq_getElem?_getD, hil]
  have htaps : holdsBits s2.polymem 1 (tapsOf (berlekampMassey block).2 s2.op.lfsrL.toNat) := by
    intro i hi
    rw [tapsOf_length] at hi
    rw [hpoly, State.complete_polymem, tapsOf_getD _ hi, Nat.add_comm, bmEffects_read _ _ (by omega)]
  obtain ⟨t2, seq, ht2, -, ⟨hseqlen, hseqinit, hseqgen⟩, -, hwrite, -⟩ :=
    lfsrCompletes s2 lsbf width _ _ h2 hb2 (hpoly ▸ Memory.writeSeq_wf hp1 _ _) (by simp; omega) hinit (by simp) htaps
  refine ⟨t2, ht2, ?_⟩
  have hnval : s2.op.nbits.toNat = block.length := by rw [hn, hlen]
  have hlenseq : seq.length = block.length := by omega
  have hsame : seq = block := by
    refine hseqgen.unique (hlval ▸ hgen) (fun i hi => ?_) hlenseq hseqinit
    exact tapsOf_getD _ hi
  rwa [hsame, hnval, List.take_length] at hwrite

end

section
/-! The issue of the four analysis commands (43 R187, 44 R202, 45 R218, R221). -/

namespace Sys2Proof.Machine

/-! ## The operands and the units of work -/

/-- OP.LEN is LEN at issue (10_state R50). -/
@[simp] theorem OpSet.latch_len (r : OperandRegs) (w : Word) : (OpSet.latch r w).len = r.len := rfl

/-- The block length at issue comes from BLK (10_state R50). -/
@[simp] theorem OpSet.latch_blockLength (r : OperandRegs) (w : Word) :
    (OpSet.latch r w).blockLength = if r.blk.toNat = 0 then 500 else r.blk.toNat := rfl

theorem OpSet.blockLength_pos (o : OpSet) : 0 < o.blockLength := by
  unfold OpSet.blockLength
  split <;> omega

/-- RANK is short of input below one matrix (43 R187). -/
@[simp] theorem commandShort_rank (o : OpSet) : commandShort .rank o = true ↔ o.len.toNat < 1024 := by
  simp [commandShort, matrixCount]

/-- DFT is short of input below 2 bits (44 R202). -/
@[simp] theorem commandShort_dft (o : OpSet) : commandShort .dft o = true ↔ o.len.toNat < 2 := by
  simp [commandShort, componentCount]

/-- BM needs no bit (45 R218). -/
@[simp] theorem commandShort_bm (o : OpSet) : commandShort .bm o = false := rfl

/-- LINCOMP is short of input below one block (45 R221). -/
@[simp] theorem commandShort_lincomp (o : OpSet) : commandShort .lincomp o = true ↔ o.len.toNat < o.blockLength := by
  have hpos : o.blockLength ≠ 0 := o.blockLength_pos.ne'
  simp [commandShort, blockCount, Nat.div_eq_zero_iff, hpos]

/-! ## One check and two checks -/

/-- An issue with one check: its error, InsufficientData, or the command in flight (60_exceptions R242, R243). -/
theorem issue_oneCheck (i : Instr) (a : Config → OpSet → Check) (short : OpSet → Bool) (s : State) :
    let t := s.prepare (encode i)
    issue i (fun c o => [a c o]) short s = .next
      (if (a t.cfg t.op).fails then t.fail (a t.cfg t.op).code (a t.cfg t.op).info
        else if short t.op then t.insufficient else t.accept) := by
  simp only [issue, firstFailure_cons, firstFailure_nil]
  split_ifs <;> rfl

/-- An issue with two checks reports the first that fails (60_exceptions R243). -/
theorem issue_twoChecks (i : Instr) (a b : Config → OpSet → Check) (short : OpSet → Bool) (s : State) :
    let t := s.prepare (encode i)
    issue i (fun c o => [a c o, b c o]) short s = .next
      (if (a t.cfg t.op).fails then t.fail (a t.cfg t.op).code (a t.cfg t.op).info
        else if (b t.cfg t.op).fails then t.fail (b t.cfg t.op).code (b t.cfg t.op).info
        else if short t.op then t.insufficient else t.accept) := by
  simp only [issue, firstFailure_cons, firstFailure_nil]
  split_ifs <;> rfl

end Sys2Proof.Machine

open Sys2Proof Sys2Proof.Machine

/-- Settles O16: RANK has one check and the others two; the first that fails decides, then the units of work. -/
theorem analysisIssue : Obligations.AnalysisIssue := by
  unfold Obligations.AnalysisIssue
  intro s hb n m outOfRange t
  refine ⟨?_, ?_, ?_, ?_⟩
  · rw [exec_idle hb .rank nofun]
    refine (issue_oneCheck ..).trans ?_
    simp [n, outOfRange, t]
  · rw [exec_idle hb .dft nofun]
    refine (issue_twoChecks ..).trans ?_
    simp [n, outOfRange, t]
  · rw [exec_idle hb .bm nofun]
    refine (issue_twoChecks ..).trans ?_
    simp [n, outOfRange, t]
  · rw [exec_idle hb .lincomp nofun]
    refine (issue_twoChecks ..).trans ?_
    simp [n, m, outOfRange, t]
end

section
/-! The elimination of RANK computes the rank over GF(2) (43 R186): each column keeps the row space and adds one column
to an echelon form. -/

namespace Sys2Proof.Machine

/-! ## Rows as vectors over GF(2) -/

/-- A word as a row over GF(2), column c its bit c. -/
def rowVector (v : Word) : Fin 32 → ZMod 2 := fun c => bitOf (v.getLsbD c)

theorem rowVector_zero : rowVector 0 = 0 := by
  ext c
  simp [rowVector]

/-- Row addition is bitwise exclusive or (43 R186). -/
theorem rowVector_xor (v w : Word) : rowVector (v ^^^ w) = rowVector v + rowVector w := by
  ext c
  simp [rowVector, bitOf_xor]

/-- The span of the rows; an index past the last row stands for the row 0. -/
def rowSpace (a : List Word) : Submodule (ZMod 2) (Fin 32 → ZMod 2) :=
  Submodule.span (ZMod 2) (Set.range fun i : Nat => rowVector (a.getD i 0))

theorem rowVector_mem_rowSpace (a : List Word) (i : Nat) : rowVector (a.getD i 0) ∈ rowSpace a :=
  Submodule.subset_span ⟨i, rfl⟩

theorem rowSpace_le {a : List Word} {S : Submodule (ZMod 2) (Fin 32 → ZMod 2)}
    (h : ∀ i, rowVector (a.getD i 0) ∈ S) : rowSpace a ≤ S :=
  Submodule.span_le.2 (Set.range_subset_iff.2 h)

/-- The rank of the matrix is the dimension of the row space. -/
theorem rank_gf2Matrix {a : List Word} (hlen : a.length = 32) :
    (Reference.gf2Matrix a).rank = Module.finrank (ZMod 2) (rowSpace a) := by
  have hspan : Submodule.span (ZMod 2) (Set.range (Reference.gf2Matrix a).row) = rowSpace a := by
    refine le_antisymm (Submodule.span_le.2 ?_) (rowSpace_le fun i => ?_)
    · rintro _ ⟨i, rfl⟩
      exact rowVector_mem_rowSpace a i
    · by_cases hi : i < 32
      · exact Submodule.subset_span ⟨⟨i, hi⟩, rfl⟩
      · rw [List.getD_eq_default _ _ (by omega), rowVector_zero]
        exact Submodule.zero_mem _
  rw [Matrix.rank_eq_finrank_span_row, hspan]

/-! ## The two row operations -/

/-- Row r added to every other row with a 1 in the column (43 R186). -/
def clearColumn (b : List Word) (r col : Nat) : List Word :=
  b.mapIdx fun j row => if j ≠ r ∧ row.getLsbD col = true then row ^^^ b.getD r 0 else row

/-- Everything one column of the elimination does: nothing where no row from r on has a 1 in the column; else such a
row is swapped to r and the column is cleared. -/
theorem eliminateColumn_cases (r : Nat) (a : List Word) (col : Nat) :
    (eliminateColumn (r, a) col = (r, a) ∧ ∀ i, r ≤ i → (a.getD i 0).getLsbD col = false) ∨
    ∃ i, r ≤ i ∧ i < a.length ∧ (a.getD i 0).getLsbD col = true ∧
      eliminateColumn (r, a) col = (r + 1, clearColumn (swapRows a i r) r col) := by
  cases hfind : (List.range a.length).find? (fun i => decide (r ≤ i) && (a.getD i 0).getLsbD col) with
  | none =>
    refine .inl ⟨by simp only [eliminateColumn, hfind], fun i hi => ?_⟩
    by_cases hlen : i < a.length
    · simpa [hi] using List.find?_eq_none.1 hfind i (List.mem_range.2 hlen)
    · rw [List.getD_eq_default _ _ (by omega), BitVec.ofNat_eq_ofNat, BitVec.getLsbD_zero]
  | some i =>
    have hi : r ≤ i ∧ (a.getD i 0).getLsbD col = true := by simpa using List.find?_some hfind
    exact .inr ⟨i, hi.1, List.mem_range.1 (List.mem_of_find?_eq_some hfind), hi.2,
      by simp only [eliminateColumn, hfind, clearColumn]⟩

theorem swapRows_getD {a : List Word} {i j : Nat} (hi : i < a.length) (hj : j < a.length) (k : Nat) :
    (swapRows a i j).getD k 0 = a.getD (Equiv.swap i j k) 0 := by
  simp only [swapRows, Equiv.swap_apply_def, List.getD_eq_getElem?_getD, List.getElem?_set, List.length_set]
  rcases eq_or_ne k j with rfl | hkj
  · rcases eq_or_ne k i with rfl | hki
    · simp [hi]
    · simp [hki, hj]
  · rcases eq_or_ne k i with rfl | hki
    · simp [hkj.symm, hi]
    · simp [hkj, hkj.symm, hki, hki.symm]

theorem clearColumn_getD (b : List Word) (r col j : Nat) :
    (clearColumn b r col).getD j 0 =
      if j ≠ r ∧ (b.getD j 0).getLsbD col = true then b.getD j 0 ^^^ b.getD r 0 else b.getD j 0 := by
  by_cases hj : j < b.length
  · simp [clearColumn, List.getD_eq_getElem?_getD, hj]
  · simp [clearColumn, List.getD_eq_getElem?_getD, hj]

theorem clearColumn_getD_self (b : List Word) (r col : Nat) : (clearColumn b r col).getD r 0 = b.getD r 0 := by
  rw [clearColumn_getD, if_neg fun h => h.1 rfl]

/-- Swapping two rows keeps the row space. -/
theorem rowSpace_swapRows {a : List Word} {i j : Nat} (hi : i < a.length) (hj : j < a.length) :
    rowSpace (swapRows a i j) = rowSpace a := by
  have hrows : (fun k => rowVector ((swapRows a i j).getD k 0)) =
      (fun k => rowVector (a.getD k 0)) ∘ Equiv.swap i j := funext fun k => by
    rw [swapRows_getD hi hj, Function.comp_apply]
  rw [rowSpace, hrows, (Equiv.surjective _).range_comp, rowSpace]

/-- Adding one row to others keeps the row space. -/
theorem rowSpace_clearColumn (b : List Word) (r col : Nat) : rowSpace (clearColumn b r col) = rowSpace b := by
  have hpivot : rowVector (b.getD r 0) ∈ rowSpace (clearColumn b r col) := by
    rw [← clearColumn_getD_self b r col]
    exact rowVector_mem_rowSpace _ r
  refine le_antisymm (rowSpace_le fun j => ?_) (rowSpace_le fun j => ?_)
  · rw [clearColumn_getD]
    split
    · rw [rowVector_xor]
      exact add_mem (rowVector_mem_rowSpace b j) (rowVector_mem_rowSpace b r)
    · exact rowVector_mem_rowSpace b j
  · have hrow := rowVector_mem_rowSpace (clearColumn b r col) j
    rw [clearColumn_getD] at hrow
    split at hrow
    · rw [rowVector_xor] at hrow
      exact (add_mem_cancel_right hpivot).1 hrow
    · exact hrow

/-! ## The echelon form -/

/-- The first `r` rows have each a column below `col` where only that row has a 1, and the other rows are 0 in the
columns below `col`. -/
structure Echelon (a : List Word) (r col : Nat) : Prop where
  pivot : ∀ j, j < r → ∃ c, c < col ∧ ∀ i, (a.getD i 0).getLsbD c = decide (i = j)
  below : ∀ i, r ≤ i → ∀ c, c < col → (a.getD i 0).getLsbD c = false

theorem echelon_zero (a : List Word) : Echelon a 0 0 := ⟨by simp, by simp⟩

/-- A column without a 1 from row r on leaves the rows as they are. -/
theorem Echelon.skip {a : List Word} {r col : Nat} (h : Echelon a r col)
    (hzero : ∀ i, r ≤ i → (a.getD i 0).getLsbD col = false) : Echelon a r (col + 1) where
  pivot j hj := by
    obtain ⟨c, hc, hbits⟩ := h.pivot j hj
    exact ⟨c, by omega, hbits⟩
  below i hi c hc := by
    rcases Nat.lt_succ_iff_lt_or_eq.1 hc with hlt | rfl
    · exact h.below i hi c hlt
    · exact hzero i hi

/-- Swapping two of the other rows keeps the form. -/
theorem Echelon.swap {a : List Word} {r col i : Nat} (h : Echelon a r col) (hri : r ≤ i) (hi : i < a.length) :
    Echelon (swapRows a i r) r col where
  pivot j hj := by
    obtain ⟨c, hc, hbits⟩ := h.pivot j hj
    refine ⟨c, hc, fun k => ?_⟩
    have hfix : Equiv.swap i r j = j := Equiv.swap_apply_of_ne_of_ne (by omega) (by omega)
    rw [swapRows_getD hi (by omega), hbits]
    simp only [Equiv.swap_apply_eq_iff, hfix]
  below k hk c hc := by
    rw [swapRows_getD hi (by omega)]
    refine h.below _ ?_ c hc
    rw [Equiv.swap_apply_def]
    split_ifs <;> omega

/-- Clearing a column in which row r has a 1 makes row r the row of that column. -/
theorem Echelon.clear {b : List Word} {r col : Nat} (h : Echelon b r col)
    (hone : (b.getD r 0).getLsbD col = true) : Echelon (clearColumn b r col) (r + 1) (col + 1) := by
  have hkeep (i : Nat) {c : Nat} (hc : c < col) :
      ((clearColumn b r col).getD i 0).getLsbD c = (b.getD i 0).getLsbD c := by
    rw [clearColumn_getD]
    split
    · rw [BitVec.getLsbD_xor, h.below r le_rfl c hc, Bool.xor_false]
    · rfl
  have hcol (i : Nat) : ((clearColumn b r col).getD i 0).getLsbD col = decide (i = r) := by
    rcases eq_or_ne i r with rfl | hir
    · rw [clearColumn_getD_self, hone, decide_eq_true rfl]
    · rw [clearColumn_getD, decide_eq_false hir]
      split
      · next hadd => rw [BitVec.getLsbD_xor, hadd.2, hone, Bool.xor_self]
      · next hkept => exact Bool.eq_false_of_not_eq_true fun hbit => hkept ⟨hir, hbit⟩
  refine ⟨fun j hj => ?_, fun i hi c hc => ?_⟩
  · rcases Nat.lt_succ_iff_lt_or_eq.1 hj with hlt | rfl
    · obtain ⟨c, hc, hbits⟩ := h.pivot j hlt
      exact ⟨c, by omega, fun i => (hkeep i hc).trans (hbits i)⟩
    · exact ⟨col, by omega, hcol⟩
  · rcases Nat.lt_succ_iff_lt_or_eq.1 hc with hlt | rfl
    · rw [hkeep i hlt, h.below i (by omega) c hlt]
    · rw [hcol, decide_eq_false (by omega)]

/-- One column of the elimination keeps the row space and takes the form one column further. -/
theorem Echelon.eliminate {a : List Word} {r col : Nat} (h : Echelon a r col) :
    Echelon (eliminateColumn (r, a) col).2 (eliminateColumn (r, a) col).1 (col + 1) ∧
      rowSpace (eliminateColumn (r, a) col).2 = rowSpace a := by
  rcases eliminateColumn_cases r a col with ⟨he, hzero⟩ | ⟨i, hri, hi, hone, he⟩
  · rw [he]
    exact ⟨h.skip hzero, rfl⟩
  · have hr : r < a.length := by omega
    have hone' : ((swapRows a i r).getD r 0).getLsbD col = true := by
      rw [swapRows_getD hi hr, Equiv.swap_apply_right, hone]
    rw [he]
    exact ⟨(h.swap hri hi).clear hone', (rowSpace_clearColumn _ _ _).trans (rowSpace_swapRows hi hr)⟩

/-- The first `n` columns of the elimination: the row space is kept, and the form reaches column `n`. -/
theorem foldl_eliminateColumn (a : List Word) (n : Nat) :
    Echelon ((List.range n).foldl eliminateColumn (0, a)).2 ((List.range n).foldl eliminateColumn (0, a)).1 n ∧
      rowSpace ((List.range n).foldl eliminateColumn (0, a)).2 = rowSpace a := by
  induction n with
  | zero => exact ⟨echelon_zero a, rfl⟩
  | succ n ih =>
    obtain ⟨hform, hspace⟩ := ih
    obtain ⟨hform', hspace'⟩ := hform.eliminate
    rw [List.range_succ, List.foldl_concat]
    exact ⟨hform', hspace'.trans hspace⟩

/-- With every column done, the first r rows are a basis of the row space. -/
theorem Echelon.finrank_rowSpace {a : List Word} {r : Nat} (h : Echelon a r 32) :
    Module.finrank (ZMod 2) (rowSpace a) = r := by
  have hindep : LinearIndependent (ZMod 2) fun j : Fin r => rowVector (a.getD j 0) := by
    rw [Fintype.linearIndependent_iff]
    intro g hg j
    obtain ⟨c, hc, hbits⟩ := h.pivot j j.isLt
    have hat := congrFun hg ⟨c, hc⟩
    simp only [Finset.sum_apply, Pi.smul_apply, rowVector, hbits] at hat
    simpa [bitOf, Fin.val_inj] using hat
  have hspan : rowSpace a = Submodule.span (ZMod 2) (Set.range fun j : Fin r => rowVector (a.getD j 0)) := by
    refine le_antisymm (rowSpace_le fun i => ?_) (Submodule.span_le.2 ?_)
    · by_cases hi : i < r
      · exact Submodule.subset_span ⟨⟨i, hi⟩, rfl⟩
      · have hzero : rowVector (a.getD i 0) = 0 := funext fun c =>
          bitOf_eq_zero.2 (h.below i (by omega) c c.isLt)
        rw [hzero]
        exact Submodule.zero_mem _
    · rintro _ ⟨j, rfl⟩
      exact rowVector_mem_rowSpace a j
  rw [hspan, finrank_span_eq_card hindep, Fintype.card_fin]

/-- The elimination returns the dimension of the row space. -/
theorem rankGF2_eq_finrank (a : List Word) : rankGF2 a = Module.finrank (ZMod 2) (rowSpace a) := by
  obtain ⟨hform, hspace⟩ := foldl_eliminateColumn a 32
  rw [← hspace, hform.finrank_rowSpace, rankGF2]

/-- A rank is at most 32. -/
theorem rankGF2_le (a : List Word) : rankGF2 a ≤ 32 := by
  rw [rankGF2_eq_finrank]
  simpa using Submodule.finrank_le (rowSpace a)

end Sys2Proof.Machine

open Sys2Proof Sys2Proof.Machine

/-- Settles O29: both are the dimension of the row space. -/
theorem eliminationComputesTheRank : Obligations.EliminationComputesTheRank := by
  unfold Obligations.EliminationComputesTheRank
  intro rows hlen
  rw [rankGF2_eq_finrank, rank_gf2Matrix hlen]
end

section
/-! The completions of the four analysis commands: each is made of the bits of its source region (43 R188, 44 R204,
45 R223). -/

namespace Sys2Proof.Machine

/-! ## What each completion writes -/

/-- What the completion of RANK over `bits` writes (43 R187). -/
def rankEffects (bits : List Bool) (s : State) : Effects where
  res     :=
    rankResults ((blocksOf 1024 (matrixCount s.op) bits).map fun m => rankGF2 (matrixRows m)) s.op.len.toNat
  elapsed := s.elapsedDraw
  bitmem  := s.bitmem
  polymem := s.polymem

/-- What the completion of DFT over `bits` writes (44 R202). -/
def dftEffects (bits : List Bool) (s : State) : Effects where
  res     :=
    { res0 := s.op.len, res1 := resultWord (dftCount s.cfg s.draws bits), res2 := resultWord (componentCount s.op),
      res3 := resultWord (bits.countP id) }
  elapsed := s.elapsedDraw
  bitmem  := s.bitmem
  polymem := s.polymem

/-- What the completion of LINCOMP over `bits` writes (45 R221). -/
def lincompEffects (bits : List Bool) (s : State) : Effects where
  res     :=
    lincompResults ((blocksOf s.op.blockLength (blockCount s.op) bits).map fun b =>
      complexityCategory (berlekampMassey b).1 s.op.blockLength)
  elapsed := s.elapsedDraw
  bitmem  := s.bitmem
  polymem := s.polymem

/-- The completion that reads the source region of command `i` and has the effects that `effects` makes of its bits. -/
def completesOver (i : Instr) (effects : List Bool → State → Effects) : Prop :=
  ∀ s : State, s.busy = true →
    exec i s = withBits .bitmem s.op.src.toNat (readBits i s.op) s fun bits => .next (s.complete (effects bits s))

theorem rank_completesOver : completesOver .rank rankEffects := fun s h => by
  simp only [exec, execRank, h, if_true]
  rfl

theorem dft_completesOver : completesOver .dft dftEffects := fun s h => by
  simp [exec, execDft, h, readBits, dftEffects, resultWord]

theorem bm_completesOver : completesOver .bm bmEffects := fun s h => by
  simp [exec, execBm, h, readBits, bmEffects, resultWord]

theorem lincomp_completesOver : completesOver .lincomp lincompEffects := fun s h => by
  simp only [exec, execLincomp, h, if_true]
  rfl

/-- With its source region marked, such a command completes. -/
theorem completesOver.exec_eq {i : Instr} {effects : List Bool → State → Effects} (hc : completesOver i effects)
    {s : State} (h : s.busy = true) (hm : s.bitmem.wf) {bits : List Bool} (hlen : bits.length = readBits i s.op)
    (hbits : holdsBits s.bitmem s.op.src.toNat bits) : exec i s = .next (s.complete (effects bits s)) :=
  (hc s h).trans (withBits_ok (sp := .bitmem) hm hlen hbits _)

/-! ## What the results depend on -/

/-- A region read depends only on the bits of the region. -/
theorem Memory.readSeq_congr {m m' : Memory} (hm : m.wf) (hm' : m'.wf) {a n : Nat} {bs : List Bool}
    (hsame : ∀ x, a ≤ x → x < a + n → m.read x = m'.read x) (h : m.readSeq a n = .ok bs) : m'.readSeq a n = .ok bs := by
  have hspec := Memory.readSeq_spec hm a n
  rw [h] at hspec
  obtain ⟨hlen, hbits⟩ := hspec
  rw [← hlen]
  exact Memory.readSeq_ok hm' fun i hi => (hsame _ (by omega) (by omega)).symm.trans (hbits i hi)

/-- Equal input bits complete with the same bits. -/
theorem completesOver.congr {i : Instr} {effects : List Bool → State → Effects} (hc : completesOver i effects)
    {s1 s2 t1 : State} (h1 : s1.busy = true) (h2 : s2.busy = true) (hop : s1.op = s2.op) (hm1 : s1.bitmem.wf)
    (hm2 : s2.bitmem.wf)
    (hsame : ∀ a, s1.op.src.toNat ≤ a → a < s1.op.src.toNat + readBits i s1.op → s1.bitmem.read a = s2.bitmem.read a)
    (hexec : exec i s1 = .next t1) :
    ∃ bits, t1 = s1.complete (effects bits s1) ∧ exec i s2 = .next (s2.complete (effects bits s2)) := by
  rw [hc s1 h1] at hexec
  rw [hc s2 h2, ← hop]
  rcases withBits_cases .bitmem s1.op.src.toNat (readBits i s1.op) s1 fun bits => .next (s1.complete (effects bits s1))
    with ⟨bits, hread, hok⟩ | ⟨addr, -, hfault, -⟩
  · rw [hok] at hexec
    injection hexec with ht
    exact ⟨bits, ht.symm, by simp only [withBits, State.mem, Memory.readSeq_congr hm1 hm2 hsame hread]⟩
  · rw [hfault] at hexec
    cases hexec

/-! ## The matrices of the input (43 R185) -/

/-- The blocks of a sequence given bit by bit. -/
theorem blocksOf_map_range (f : Nat → Bool) (size count : Nat) :
    blocksOf size count ((List.range (size * count)).map f) =
      (List.range count).map fun k => (List.range size).map fun j => f (size * k + j) := by
  induction count generalizing f with
  | zero => rfl
  | succ count ih =>
    have hcut : (List.range (size * (count + 1))).map f =
        (List.range size).map f ++ (List.range (size * count)).map fun j => f (size + j) := by
      rw [Nat.mul_succ, Nat.add_comm, List.range_add, List.map_append, List.map_map]
      rfl
    have hlen : ((List.range size).map f).length = size := by simp
    have hnext (k j : Nat) : size + (size * k + j) = size * (k + 1) + j := by ring
    rw [hcut, blocksOf, List.take_left' hlen, List.drop_left' hlen, ih, List.range_succ_eq_map]
    simp [hnext]

/-- Bit i of the input of which matrix k has the rows `rows k`. -/
def inputBit (rows : Nat → List Word) (i : Nat) : Bool :=
  ((rows (i / 1024)).getD (i / 32 % 32) 0).getLsbD (i % 32)

theorem inputBit_eq (rows : Nat → List Word) (k : Nat) {r c : Nat} (hr : r < 32) (hc : c < 32) :
    inputBit rows (1024 * k + (32 * r + c)) = ((rows k).getD r 0).getLsbD c := by
  have hk : (1024 * k + (32 * r + c)) / 1024 = k := by omega
  have hrow : (1024 * k + (32 * r + c)) / 32 % 32 = r := by omega
  have hcol : (1024 * k + (32 * r + c)) % 32 = c := by omega
  rw [inputBit, hk, hrow, hcol]

/-- The input of `count` matrices. -/
def inputBits (rows : Nat → List Word) (count : Nat) : List Bool := (List.range (1024 * count)).map (inputBit rows)

@[simp] theorem inputBits_length (rows : Nat → List Word) (count : Nat) :
    (inputBits rows count).length = 1024 * count := by
  simp [inputBits]

/-- A memory that holds the matrices row by row from `a` holds their input there. -/
theorem holdsBits_inputBits {m : Memory} {a count : Nat} {rows : Nat → List Word}
    (h : ∀ k, k < count → ∀ r c, r < 32 → c < 32 →
      m.read (a + 1024 * k + 32 * r + c) = some (((rows k).getD r 0).getLsbD c)) :
    holdsBits m a (inputBits rows count) := by
  intro i hi
  rw [inputBits_length] at hi
  have hcut : a + 1024 * (i / 1024) + 32 * (i / 32 % 32) + i % 32 = a + i := by omega
  have hbit := h (i / 1024) (by omega) (i / 32 % 32) (i % 32) (by omega) (by omega)
  rw [hcut] at hbit
  simpa [inputBits, inputBit, hi, List.getD_eq_getElem?_getD] using hbit

/-- The matrices cut from the input are the given ones. -/
theorem matrixRows_blocks {rows : Nat → List Word} {count : Nat} (hlen : ∀ k, k < count → (rows k).length = 32) :
    (blocksOf 1024 count (inputBits rows count)).map matrixRows = (List.range count).map rows := by
  rw [inputBits, blocksOf_map_range, List.map_map]
  refine List.map_congr_left fun k hk => ?_
  have hk' := hlen k (List.mem_range.1 hk)
  rw [Function.comp_apply, matrixRows, blocksOf_map_range (fun j => inputBit rows (1024 * k + j)) 32 32, List.map_map]
  refine List.ext_getElem (by simp [hk']) fun r hr hr' => ?_
  have hr32 : r < 32 := hk' ▸ hr'
  have hword : ((List.range 32).map fun c => inputBit rows (1024 * k + (32 * r + c))) =
      bitsOfWord ((rows k).getD r 0) :=
    List.map_congr_left fun c hc => inputBit_eq rows k hr32 (List.mem_range.1 hc)
  rw [List.getElem_map, List.getElem_range, Function.comp_apply, hword, wordOfBits_bitsOfWord,
    List.getD_eq_getElem _ _ hr']

/-! ## The results of RANK (43 R187) -/

/-- How many of `f 0`, …, `f (n - 1)` are in a class. -/
theorem countP_map_range (f : Nat → Nat) (p : Nat → Prop) [DecidablePred p] (n : Nat) :
    ((List.range n).map f).countP (fun x => decide (p x)) = ((Finset.range n).filter fun k => p (f k)).card := by
  rw [List.countP_map, ← Nat.count_eq_card_filter_range]
  rfl

/-- The ranks that are neither 32 nor 31 are those of at most 30. -/
theorem length_sub_countP {ranks : List Nat} (hle : ∀ x ∈ ranks, x ≤ 32) :
    ranks.length - ranks.countP (· == 32) - ranks.countP (· == 31) = ranks.countP (· ≤ 30) := by
  suffices h : ranks.length = ranks.countP (· == 32) + ranks.countP (· == 31) + ranks.countP (· ≤ 30) by omega
  induction ranks with
  | nil => rfl
  | cons x xs ih =>
    have hx := hle x List.mem_cons_self
    have hxs := ih fun y hy => hle y (List.mem_cons_of_mem x hy)
    simp only [List.countP_cons, List.length_cons, beq_iff_eq, decide_eq_true_eq]
    split_ifs <;> omega

/-- The least of some ranks is one of them and below all. -/
theorem foldl_min_spec {ranks : List Nat} (hne : ranks ≠ []) (hle : ∀ x ∈ ranks, x ≤ 32) :
    ranks.foldl min 32 ∈ ranks ∧ ∀ x ∈ ranks, ranks.foldl min 32 ≤ x := by
  obtain ⟨hmem, hleast⟩ := List.min?_eq_some_iff.1 (List.min?_cons' (x := 32) (xs := ranks))
  refine ⟨(List.mem_cons.1 hmem).elim (fun h32 => ?_) id, fun x hx => hleast x (List.mem_cons_of_mem _ hx)⟩
  obtain ⟨x, hx⟩ := List.exists_mem_of_ne_nil ranks hne
  have hmin := hleast x (List.mem_cons_of_mem _ hx)
  have hx32 : x = ranks.foldl min 32 := Nat.le_antisymm ((hle x hx).trans_eq h32.symm) hmin
  exact hx32 ▸ hx

/-- The results over the ranks `f 0`, …, `f (count - 1)`, each class by its members. -/
theorem rankResults_map_range {f : Nat → Nat} (hle : ∀ k, f k ≤ 32) {n : Nat} (hn : 1024 ≤ n) :
    ∃ least, (∀ k, k < n / 1024 → least ≤ f k) ∧ (∃ k, k < n / 1024 ∧ least = f k) ∧
      rankResults ((List.range (n / 1024)).map f) n =
        { res0 := BitVec.ofNat 32 (n / 1024)
          res1 := BitVec.ofNat 32 ((Finset.range (n / 1024)).filter fun k => f k = 32).card
          res2 := BitVec.ofNat 32 ((Finset.range (n / 1024)).filter fun k => f k = 31).card
          res3 := BitVec.ofNat 32 ((Finset.range (n / 1024)).filter fun k => f k ≤ 30).card
          res4 := BitVec.ofNat 32 least
          res5 := BitVec.ofNat 32 (f (n / 1024 - 1))
          res6 := BitVec.ofNat 32 (n % 1024) } := by
  obtain ⟨last, hcount⟩ : ∃ last, n / 1024 = last + 1 := ⟨n / 1024 - 1, by omega⟩
  have hranks : ∀ x ∈ (List.range (n / 1024)).map f, x ≤ 32 := List.forall_mem_map.2 fun k _ => hle k
  obtain ⟨hmem, hleast⟩ := foldl_min_spec (by simp [hcount]) hranks
  obtain ⟨k, hk, hfk⟩ := List.mem_map.1 hmem
  have hlast : ((List.range (n / 1024)).map f).getLastD 0 = f (n / 1024 - 1) := by simp [hcount, List.range_succ]
  have htail : n - 1024 * (n / 1024) = n % 1024 := by omega
  refine ⟨_, fun k hk => hleast _ (List.mem_map_of_mem (List.mem_range.2 hk)), ⟨k, List.mem_range.1 hk, hfk.symm⟩, ?_⟩
  have hclass32 : ((List.range (n / 1024)).map f).countP (· == 32) = _ := countP_map_range f (· = 32) _
  have hclass31 : ((List.range (n / 1024)).map f).countP (· == 31) = _ := countP_map_range f (· = 31) _
  rw [rankResults, length_sub_countP hranks, hclass32, hclass31, countP_map_range f (· ≤ 30), hlast, List.length_map,
    List.length_range, htail]
  rfl

end Sys2Proof.Machine

open Sys2Proof Sys2Proof.Machine

/-- Settles O28: the blocks of the input are the given matrices (`matrixRows_blocks`), and no rank is above 32. -/
theorem rankCompletes : Obligations.RankCompletes := by
  unfold Obligations.RankCompletes
  intro s rows hflight hm hn n count hrows
  have hbits : holdsBits s.bitmem s.op.src.toNat (inputBits rows count) :=
    holdsBits_inputBits fun k hk => (hrows k hk).2
  have hranks : (blocksOf 1024 count (inputBits rows count)).map (fun m => rankGF2 (matrixRows m)) =
      (List.range count).map fun k => rankGF2 (rows k) := by
    simpa [Function.comp_def] using congrArg (List.map rankGF2) (matrixRows_blocks fun k hk => (hrows k hk).1)
  obtain ⟨least, hle, hmin, hres⟩ := rankResults_map_range (fun k => rankGF2_le (rows k)) hn
  have hexec := rank_completesOver.exec_eq (State.busy_of_inFlight hflight) hm (inputBits_length rows count) hbits
  have hstate (bits : List Bool) : (rankEffects bits s).state = 0 := rfl
  refine ⟨_, least, hexec, State.complete_completedFrom s _, rfl, rfl, by simp [hstate], by simp [hstate], rfl,
    hle, hmin, ?_⟩
  rw [← hres, ← hranks]
  rfl

/-- Settles O40: equal regions give equal bits, and the results of each command are made of them, OP, the parameters
and the draws. -/
theorem analysisDependsOnlyOnItsInput : Obligations.AnalysisDependsOnlyOnItsInput := by
  unfold Obligations.AnalysisDependsOnlyOnItsInput
  intro i s1 s2 t1 hi h1 h2 hop hcfg hdraws hm1 hm2 hsame hexec
  have hb1 := State.busy_of_inFlight h1
  have hb2 := State.busy_of_inFlight h2
  rcases hi with rfl | rfl | rfl | rfl
  · obtain ⟨bits, rfl, h⟩ := rank_completesOver.congr hb1 hb2 hop hm1 hm2 hsame hexec
    exact ⟨_, h, by simp [rankEffects, hop], nofun⟩
  · obtain ⟨bits, rfl, h⟩ := dft_completesOver.congr hb1 hb2 hop hm1 hm2 hsame hexec
    exact ⟨_, h, by simp [dftEffects, hop, hcfg, hdraws], nofun⟩
  · obtain ⟨bits, rfl, h⟩ := bm_completesOver.congr hb1 hb2 hop hm1 hm2 hsame hexec
    refine ⟨_, h, by simp [bmEffects, hop], fun _ a ha => ?_⟩
    rw [State.complete_polymem, State.complete_polymem, bmEffects_read bits s1 ha, bmEffects_read bits s2 (hop ▸ ha)]
  · obtain ⟨bits, rfl, h⟩ := lincomp_completesOver.congr hb1 hb2 hop hm1 hm2 hsame hexec
    exact ⟨_, h, by simp [lincompEffects, hop], nofun⟩

end

section
/-! The completion of DFT: its counts are over the indices of the bits and of the components (44 R202). -/

namespace Sys2Proof.Machine

/-! ## Counts over indices -/

/-- A count over a list by the indices of its entries. -/
theorem countP_eq_card_getD {α : Type} (l : List α) (d : α) (p : α → Bool) :
    l.countP p = ((Finset.range l.length).filter fun k => p (l.getD k d) = true).card := by
  have hmap : l = (List.range l.length).map fun k => l.getD k d :=
    List.ext_getElem (by simp) fun k hk _ => by simp [hk]
  conv_lhs => rw [hmap]
  rw [List.countP_map, ← Nat.count_eq_card_filter_range]
  simp [Nat.count, Function.comp_def]

/-- N1 counts the components with the verdict 1. -/
theorem dftCount_eq_card (cfg : Config) (draws : Nat) (bits : List Bool) :
    dftCount cfg draws bits = ((Finset.range (bits.length / 2)).filter fun k =>
      dftVerdict cfg bits k ((powerSpectrum firstPrecision bits).getD k 0)
        (Config.dftVerdictDraw draws k) = true).card := by
  rw [dftCount, countP_eq_card_getD _ (0, 0), List.length_zipIdx, powerSpectrum_length]
  congr 1
  refine Finset.filter_congr fun k hk => ?_
  rw [Finset.mem_range] at hk
  simp [hk]

end Sys2Proof.Machine

open Sys2Proof Sys2Proof.Machine

/-- Settles O30: the source region is the sequence of input bits, and both counts are over its indices. -/
theorem dftCompletes : Obligations.DftCompletes := by
  unfold Obligations.DftCompletes
  intro s bits hflight hm _ hlen hbits n power
  have hexec := dft_completesOver.exec_eq (State.busy_of_inFlight hflight) hm hlen hbits
  have hstate : (dftEffects bits s).state = 0 := rfl
  refine ⟨_, hexec, State.complete_completedFrom s _, rfl, rfl, by simp [hstate], by simp [hstate], rfl, ?_⟩
  rw [State.complete_res, dftEffects, dftCount_eq_card, countP_eq_card_getD _ false, hlen]
  rfl
end

section
/-! Fixed point against the reals: how far the enclosures of π, ln 20 and the cosines are from 2^p times the value. -/

namespace Sys2Proof.Machine
open Finset

/-! ## Rounding and sums -/

/-- Dividing naturals and rounding down errs by at most 1. -/
theorem abs_natDiv_sub_div_le (a b : Nat) : |((a / b : Nat) : ℝ) - (a : ℝ) / b| ≤ 1 := by
  rw [← Nat.floor_div_eq_div (K := ℝ), abs_sub_comm, abs_of_nonneg (sub_nonneg.2 (Nat.floor_le (by positivity)))]
  linarith [Nat.lt_floor_add_one ((a : ℝ) / b)]

/-- Dividing integers and rounding down errs by at most 1. -/
theorem abs_intDiv_sub_div_le (a : Int) (b : Nat) : |((a / b : Int) : ℝ) - (a : ℝ) / b| ≤ 1 := by
  have hfloor : (a / (b : Int)) = ⌊(a : ℝ) / b⌋ := by
    rw [Int.floor_div_natCast, Int.floor_intCast]
  rw [hfloor, abs_sub_comm, abs_of_nonneg (sub_nonneg.2 (Int.floor_le _))]
  linarith [Int.lt_floor_add_one ((a : ℝ) / b)]

/-- Sums of n terms that differ by at most `e` differ by at most n·e. -/
theorem abs_sum_range_sub_le {f g : Nat → ℝ} {n : Nat} {e : ℝ} (h : ∀ i, i < n → |f i - g i| ≤ e) :
    |∑ i ∈ range n, f i - ∑ i ∈ range n, g i| ≤ n * e := by
  rw [← sum_sub_distrib]
  refine (abs_sum_le_sum_abs _ _).trans ((sum_le_card_nsmul _ _ e fun i hi => h i (mem_range.1 hi)).trans ?_)
  rw [card_range, nsmul_eq_mul]

/-! ## The series of arctan(1/x) and artanh(1/x) -/

/-- Term i of the series of arctan(1/x), where c = -1, and of artanh(1/x), where c = 1. -/
noncomputable def seriesValue (c : Int) (x i : Nat) : ℝ :=
  (c : ℝ) ^ i * ((x : ℝ)⁻¹ ^ (2 * i + 1) / ((2 * i + 1 : Nat) : ℝ))

theorem abs_seriesTerm_sub_le {c : Int} (hc : |(c : ℝ)| = 1) (p : Nat) {x : Nat} (hx : 2 ≤ x) (i : Nat) :
    |((c ^ i * seriesTerm p x i : Int) : ℝ) - 2 ^ p * seriesValue c x i| ≤ 1 := by
  have hround := abs_natDiv_sub_div_le (2 ^ p) ((2 * i + 1) * x ^ (2 * i + 1))
  have hvalue : 2 ^ p * seriesValue c x i =
      (c : ℝ) ^ i * (((2 ^ p : Nat) : ℝ) / (((2 * i + 1) * x ^ (2 * i + 1) : Nat) : ℝ)) := by
    have hx' : (x : ℝ) ^ (2 * i + 1) ≠ 0 := by positivity
    rw [seriesValue, inv_pow]
    push_cast
    field_simp
  rw [hvalue, Int.cast_mul, Int.cast_pow, ← mul_sub, abs_mul, abs_pow, hc, one_pow, one_mul, seriesTerm,
    Int.cast_natCast]
  exact hround

theorem abs_seriesValue_le {c : Int} (hc : |(c : ℝ)| = 1) {x : Nat} (hx : 2 ≤ x) (i : Nat) :
    |seriesValue c x i| ≤ 1 / 2 * (1 / 4) ^ i := by
  have hx' : (2 : ℝ) ≤ x := by exact_mod_cast hx
  rw [seriesValue, abs_mul, abs_pow, hc, one_pow, one_mul, abs_of_nonneg (by positivity)]
  calc _ ≤ (x : ℝ)⁻¹ ^ (2 * i + 1) := div_le_self (by positivity) (by simp)
    _ ≤ (1 / 2) ^ (2 * i + 1) := by gcongr; exact one_div (2 : ℝ) ▸ inv_anti₀ two_pos hx'
    _ = 1 / 2 * (1 / 4) ^ i := by rw [pow_succ', pow_mul]; norm_num

/-- p rounded terms are within p + 1 of the series: 1 for each term, and 1 for the tail. -/
theorem abs_sum_seriesTerm_sub_le {c : Int} (hc : |(c : ℝ)| = 1) {x : Nat} (hx : 2 ≤ x) {a : ℝ}
    (ha : HasSum (seriesValue c x) a) (p : Nat) :
    |((∑ i ∈ range p, c ^ i * seriesTerm p x i : Int) : ℝ) - 2 ^ p * a| ≤ p + 1 := by
  have hterms := abs_sum_range_sub_le fun i (_ : i < p) => abs_seriesTerm_sub_le hc p hx i
  have htail : |∑ i ∈ range p, seriesValue c x i - a| ≤ 1 / 2 * (1 / 4) ^ p / (1 - 1 / 4) :=
    norm_sub_le_of_geometric_bound_of_hasSum (by norm_num) (abs_seriesValue_le hc hx) ha p
  have hscaled : |∑ i ∈ range p, 2 ^ p * seriesValue c x i - 2 ^ p * a| ≤ 1 := by
    rw [← mul_sum, ← mul_sub, abs_mul, abs_of_nonneg (by positivity)]
    calc _ ≤ (2 : ℝ) ^ p * (1 / 2 * (1 / 4) ^ p / (1 - 1 / 4)) := by gcongr
      _ = 2 / 3 * (1 / 2) ^ p := by
        rw [← mul_div_assoc, mul_left_comm, ← mul_pow]
        norm_num
        ring
      _ ≤ 2 / 3 * 1 := by gcongr; exact pow_le_one₀ (by norm_num) (by norm_num)
      _ ≤ 1 := by norm_num
  rw [Int.cast_sum]
  exact (abs_sub_le _ _ _).trans (add_le_add (mul_one (p : ℝ) ▸ hterms) hscaled)

theorem abs_arctanFixed_sub_le (p : Nat) {x : Nat} (hx : 2 ≤ x) :
    |(arctanFixed p x : ℝ) - 2 ^ p * Real.arctan (x : ℝ)⁻¹| ≤ p + 1 := by
  have hx' : (2 : ℝ) ≤ x := by exact_mod_cast hx
  have hlt : ‖(x : ℝ)⁻¹‖ < 1 := by
    rw [Real.norm_of_nonneg (by positivity)]
    exact inv_lt_one_of_one_lt₀ (by linarith)
  refine abs_sum_seriesTerm_sub_le (by simp) hx ?_ p
  convert! Real.hasSum_arctan hlt using 2 with i
  rw [seriesValue, Int.cast_neg, Int.cast_one, mul_div_assoc]

/-- artanh(1/(2a + 1)) is half of ln(1 + 1/a). -/
theorem abs_artanhFixed_sub_le (p : Nat) {a : Nat} (ha : 1 ≤ a) :
    |(artanhFixed p (2 * a + 1) : ℝ) - 2 ^ p * (Real.log (1 + (a : ℝ)⁻¹) / 2)| ≤ p + 1 := by
  have ha' : (0 : ℝ) < a := by exact_mod_cast ha
  have hsum : HasSum (seriesValue 1 (2 * a + 1)) (Real.log (1 + (a : ℝ)⁻¹) / 2) := by
    convert! (Real.hasSum_log_one_add_inv ha').div_const 2 using 2 with i
    rw [seriesValue, one_div (2 * (a : ℝ) + 1)]
    push_cast
    ring
  simpa [artanhFixed] using! abs_sum_seriesTerm_sub_le (by simp) (by omega) hsum p

theorem abs_piFixed_sub_le (p : Nat) : |(piFixed p : ℝ) - 2 ^ p * Real.pi| ≤ 20 * (p + 1) := by
  have hpi : Real.pi = 16 * Real.arctan ((5 : Nat) : ℝ)⁻¹ - 4 * Real.arctan ((239 : Nat) : ℝ)⁻¹ := by
    push_cast
    linarith [Real.four_mul_arctan_inv_5_sub_arctan_inv_239]
  obtain ⟨h5, h5'⟩ := abs_le.1 (abs_arctanFixed_sub_le p (x := 5) (by norm_num))
  obtain ⟨h239, h239'⟩ := abs_le.1 (abs_arctanFixed_sub_le p (x := 239) (by norm_num))
  rw [hpi, piFixed, abs_le]
  push_cast at *
  constructor <;> linarith

theorem log_twenty_eq : Real.log 20 = 4 * Real.log (1 + ((1 : Nat) : ℝ)⁻¹) + Real.log (1 + ((4 : Nat) : ℝ)⁻¹) := by
  have h16 : (4 : ℝ) * Real.log (1 + ((1 : Nat) : ℝ)⁻¹) = Real.log 16 := by
    rw [← Nat.cast_ofNat, ← Real.log_pow]
    norm_num
  rw [h16, ← Real.log_mul (by norm_num) (by norm_num)]
  norm_num

theorem abs_lnTwentyFixed_sub_le (p : Nat) : |(lnTwentyFixed p : ℝ) - 2 ^ p * Real.log 20| ≤ lnError p := by
  obtain ⟨h3, h3'⟩ := abs_le.1 (abs_artanhFixed_sub_le p (a := 1) (by norm_num))
  obtain ⟨h9, h9'⟩ := abs_le.1 (abs_artanhFixed_sub_le p (a := 4) (by norm_num))
  have hp : (0 : ℝ) ≤ p := by positivity
  rw [log_twenty_eq, lnTwentyFixed, lnError, abs_le]
  push_cast at *
  constructor <;> linarith

/-! ## The cosines -/

/-- The Taylor sum of the cosine, of degree below 2p. -/
noncomputable def cosTaylor (p : Nat) (x : ℝ) : ℝ := ∑ i ∈ range p, (-1) ^ i * x ^ (2 * i) / ((2 * i).factorial : ℝ)

/-- The Taylor sum of the cosine is the real part of that of the exponential. -/
theorem re_sum_exp (x : ℝ) (p : Nat) :
    (∑ m ∈ range (2 * p), (x * Complex.I) ^ m / (m.factorial : ℂ)).re = cosTaylor p x := by
  have heven (i : Nat) : ((x * Complex.I) ^ (2 * i) / ((2 * i).factorial : ℂ)).re =
      (-1) ^ i * x ^ (2 * i) / ((2 * i).factorial : ℝ) := by
    rw [← Complex.ofReal_re ((-1) ^ i * x ^ (2 * i) / ((2 * i).factorial : ℝ)), mul_pow,
      pow_mul Complex.I, Complex.I_sq]
    push_cast
    ring_nf
  have hodd (i : Nat) : ((x * Complex.I) ^ (2 * i + 1) / ((2 * i + 1).factorial : ℂ)).re = 0 := by
    have himaginary : (x * Complex.I) ^ (2 * i + 1) / ((2 * i + 1).factorial : ℂ) =
        ((x ^ (2 * i + 1) * (-1) ^ i / ((2 * i + 1).factorial : ℝ) : ℝ) : ℂ) * Complex.I := by
      rw [mul_pow, pow_succ Complex.I, pow_mul Complex.I, Complex.I_sq]
      push_cast
      ring
    rw [himaginary, Complex.re_ofReal_mul, Complex.I_re, mul_zero]
  induction p with
  | zero => simp [cosTaylor]
  | succ p ih =>
    rw [Nat.mul_succ, sum_range_succ, sum_range_succ, Complex.add_re, Complex.add_re, ih, heven, hodd, cosTaylor,
      cosTaylor, sum_range_succ, add_zero]

theorem ninetyEight_pow_le_factorial {p : Nat} (hp : 64 ≤ p) : 98 ^ p ≤ (2 * p).factorial := by
  induction p, hp using Nat.le_induction with
  | base => norm_num [Nat.factorial]
  | succ p hp ih =>
    calc 98 ^ (p + 1) = 98 * 98 ^ p := pow_succ' 98 p
      _ ≤ (2 * p + 2) * (2 * p + 1) * (2 * p).factorial := Nat.mul_le_mul (by nlinarith) ih
      _ = (2 * p + 2).factorial := by rw [mul_assoc, ← Nat.factorial_succ, ← Nat.factorial_succ]

theorem eighty_mul_le_two_pow {p : Nat} (hp : 64 ≤ p) : 80 * (p + 1) ≤ 2 ^ p := by
  induction p, hp using Nat.le_induction with
  | base => norm_num
  | succ p _ ih => rw [pow_succ]; omega

/-- From p = 64 on, the Taylor sum is within 2·2^-p of the cosine, for angles up to 7. -/
theorem abs_cosTaylor_sub_cos_le {x : ℝ} (hx : |x| ≤ 7) {p : Nat} (hp : 64 ≤ p) :
    |2 ^ p * cosTaylor p x - 2 ^ p * Real.cos x| ≤ 2 := by
  have hp' : (64 : ℝ) ≤ p := by exact_mod_cast hp
  have hnorm : ‖(x : ℂ) * Complex.I‖ = |x| := by simp
  have hexp := Complex.exp_bound' (x := x * Complex.I) (n := 2 * p) (by
    rw [hnorm, div_le_iff₀ (by positivity)]
    push_cast
    linarith)
  have hre : |cosTaylor p x - Real.cos x| ≤ |x| ^ (2 * p) / (2 * p).factorial * 2 := by
    rw [← re_sum_exp, ← Complex.exp_ofReal_mul_I_re, ← Complex.sub_re, ← hnorm]
    exact (Complex.abs_re_le_norm _).trans ((norm_sub_rev _ _).trans_le hexp)
  have hpow : 2 ^ p * |x| ^ (2 * p) ≤ ((2 * p).factorial : ℝ) := by
    calc 2 ^ p * |x| ^ (2 * p) ≤ 2 ^ p * 7 ^ (2 * p) := by gcongr
      _ = ((98 ^ p : Nat) : ℝ) := by rw [pow_mul, ← mul_pow]; norm_num
      _ ≤ ((2 * p).factorial : ℝ) := by exact_mod_cast ninetyEight_pow_le_factorial hp
  rw [← mul_sub, abs_mul, abs_of_nonneg (by positivity)]
  calc _ ≤ 2 ^ p * (|x| ^ (2 * p) / (2 * p).factorial * 2) := by gcongr
    _ = 2 ^ p * |x| ^ (2 * p) / (2 * p).factorial * 2 := by ring
    _ ≤ 1 * 2 := by gcongr; exact div_le_one_of_le₀ hpow (by positivity)
    _ = 2 := one_mul 2

/-- The angle at which `cosFixed` takes its Taylor sum, near 2π·m/n. -/
noncomputable def angleFixed (p n m : Nat) : ℝ := 2 * m * piFixed p / (n * 2 ^ p)

theorem abs_angleFixed_sub_le (p : Nat) {n m : Nat} (hm : m < n) :
    2 ^ p * |angleFixed p n m - 2 * Real.pi * m / n| ≤ 40 * (p + 1) := by
  have hn : (0 : ℝ) < n := by exact_mod_cast (Nat.zero_le m).trans_lt hm
  have hle : (m : ℝ) / n ≤ 1 := div_le_one_of_le₀ (by exact_mod_cast hm.le) hn.le
  have hdiff : 2 ^ p * (angleFixed p n m - 2 * Real.pi * m / n) = 2 * (m / n) * (piFixed p - 2 ^ p * Real.pi) := by
    rw [angleFixed]
    field_simp
  calc _ = |2 ^ p * (angleFixed p n m - 2 * Real.pi * m / n)| := by
        rw [abs_mul, abs_of_pos (by positivity : (0 : ℝ) < 2 ^ p)]
    _ = 2 * (m / n) * |piFixed p - 2 ^ p * Real.pi| := by rw [hdiff, abs_mul, abs_of_nonneg (by positivity)]
    _ ≤ 2 * 1 * (20 * (p + 1)) := by gcongr; exact abs_piFixed_sub_le p
    _ = 40 * (p + 1) := by ring

theorem abs_angleFixed_le {p n m : Nat} (hp : 64 ≤ p) (hm : m < n) : |angleFixed p n m| ≤ 7 := by
  have hn : (0 : ℝ) < n := by exact_mod_cast (Nat.zero_le m).trans_lt hm
  have hle : (m : ℝ) / n ≤ 1 := div_le_one_of_le₀ (by exact_mod_cast hm.le) hn.le
  have hexact : |2 * Real.pi * m / n| ≤ 6.3 := by
    rw [abs_of_nonneg (by positivity), mul_div_assoc]
    calc 2 * Real.pi * (m / n) ≤ 2 * 3.15 * 1 := by gcongr; exact Real.pi_lt_d2.le
      _ = 6.3 := by norm_num
  have hpow : 80 * ((p : ℝ) + 1) ≤ 2 ^ p := by exact_mod_cast eighty_mul_le_two_pow hp
  have hdiff : |angleFixed p n m - 2 * Real.pi * m / n| ≤ 0.5 := by
    refine le_of_mul_le_mul_left ((abs_angleFixed_sub_le p hm).trans ?_) (by positivity : (0 : ℝ) < 2 ^ p)
    linarith
  have htriangle := abs_sub_abs_le_abs_sub (angleFixed p n m) (2 * Real.pi * m / n)
  linarith

/-- Term i of the Taylor sum of `cosFixed`, over the common denominator. -/
def cosTermFixed (p n m i : Nat) : Int :=
  (-1) ^ i * (2 * m * piFixed p) ^ (2 * i) *
    (((n * 2 ^ p) ^ (2 * p - 2 * i) * ((2 * p).factorial / (2 * i).factorial) : Nat) : Int)

theorem cosFixed_eq (p n m : Nat) :
    cosFixed p n m =
      (2 ^ p * ∑ i ∈ range p, cosTermFixed p n m i) / (((n * 2 ^ p) ^ (2 * p) * (2 * p).factorial : Nat) : Int) := rfl

theorem cosTermFixed_cast {p n : Nat} (hn : 0 < n) (m : Nat) {i : Nat} (hi : i < p) :
    (cosTermFixed p n m i : ℝ) = (((n * 2 ^ p) ^ (2 * p) * (2 * p).factorial : Nat) : ℝ) *
      ((-1) ^ i * angleFixed p n m ^ (2 * i) / ((2 * i).factorial : ℝ)) := by
  have hle : 2 * i ≤ 2 * p := by omega
  have hsplit : ((n : ℝ) * 2 ^ p) ^ (2 * p) = (n * 2 ^ p) ^ (2 * p - 2 * i) * (n * 2 ^ p) ^ (2 * i) := by
    rw [← pow_add, Nat.sub_add_cancel hle]
  rw [cosTermFixed, angleFixed, div_pow, Int.cast_mul, Int.cast_natCast, Nat.cast_mul,
    Nat.cast_div (Nat.factorial_dvd_factorial hle) (by positivity)]
  push_cast
  rw [hsplit]
  field_simp

/-- `cosFixed` is 2^p times the Taylor sum, rounded down. -/
theorem abs_cosFixed_sub_cosTaylor_le (p : Nat) {n : Nat} (hn : 0 < n) (m : Nat) :
    |(cosFixed p n m : ℝ) - 2 ^ p * cosTaylor p (angleFixed p n m)| ≤ 1 := by
  have hround := abs_intDiv_sub_div_le (2 ^ p * ∑ i ∈ range p, cosTermFixed p n m i)
    ((n * 2 ^ p) ^ (2 * p) * (2 * p).factorial)
  rw [Int.cast_mul, Int.cast_sum, sum_congr rfl fun i hi => cosTermFixed_cast hn m (mem_range.1 hi), ← mul_sum,
    mul_left_comm, mul_div_cancel_left₀ _ (by positivity)] at hround
  rw [cosFixed_eq, cosTaylor]
  exact_mod_cast hround

/-- 64·(p + 1) is enough for the angle, the tail of the series and the rounding. -/
theorem abs_cosFixed_sub_le {p n m : Nat} (hp : 64 ≤ p) (hm : m < n) :
    |(cosFixed p n m : ℝ) - 2 ^ p * Real.cos (2 * Real.pi * m / n)| ≤ 64 * (p + 1) := by
  have hround := abs_cosFixed_sub_cosTaylor_le p ((Nat.zero_le m).trans_lt hm) m
  have htail := abs_cosTaylor_sub_cos_le (abs_angleFixed_le hp hm) hp
  have hangle : |2 ^ p * Real.cos (angleFixed p n m) - 2 ^ p * Real.cos (2 * Real.pi * m / n)| ≤ 40 * (p + 1) := by
    rw [← mul_sub, abs_mul, abs_of_nonneg (by positivity)]
    exact (mul_le_mul_of_nonneg_left (Real.abs_cos_sub_cos_le _ _) (by positivity)).trans (abs_angleFixed_sub_le p hm)
  have hsum := (abs_sub_le _ _ _).trans (add_le_add ((abs_sub_le _ _ _).trans (add_le_add hround htail)) hangle)
  have hp' : (0 : ℝ) ≤ p := by positivity
  linarith

end Sys2Proof.Machine
end

section
/-! The spectrum: the squared magnitude by the circular autocorrelation (44 R200), and its enclosure. -/

namespace Sys2Proof.Machine
open Finset

/-- x_j, the sign of bit j. -/
def signAt (bits : List Bool) (j : Nat) : Int := signOfBit (bits.getD j false)

theorem abs_signAt (bits : List Bool) (j : Nat) : |signAt bits j| = 1 := by
  rw [signAt, signOfBit]
  split <;> rfl

/-- The autocorrelation of the signs, index by index. -/
theorem autocorrelation_eq (bits : List Bool) (d : Nat) :
    autocorrelation (bits.map signOfBit) d =
      ∑ j ∈ range bits.length, signAt bits j * signAt bits ((j + d) % bits.length) := by
  have hterms : List.zipWith (· * ·) (bits.map signOfBit) ((bits.map signOfBit).rotate d) =
      (List.range bits.length).map fun j => signAt bits j * signAt bits ((j + d) % bits.length) := by
    refine List.ext_getElem (by simp) fun j hj _ => ?_
    have hj' : j < bits.length := by simpa using hj
    have hmod : (j + d) % bits.length < bits.length := Nat.mod_lt _ (by omega)
    simp [signAt, List.getElem_rotate, hj', hmod]
  rw [autocorrelation, hterms]
  rfl

/-- No autocorrelation is above n. -/
theorem abs_autocorrelation_le (bits : List Bool) (d : Nat) :
    |autocorrelation (bits.map signOfBit) d| ≤ bits.length := by
  rw [autocorrelation_eq]
  refine (abs_sum_le_sum_abs _ _).trans_eq ?_
  simp [abs_mul, abs_signAt]

/-- A sum over all residues is the same sum from any starting point. -/
theorem sum_range_add_mod {M : Type} [AddCommMonoid M] (f : Nat → M) (n j : Nat) :
    ∑ d ∈ range n, f ((j + d) % n) = ∑ l ∈ range n, f l := by
  obtain rfl | hn := Nat.eq_zero_or_pos n
  · rfl
  have : NeZero n := ⟨hn.ne'⟩
  rw [sum_range, sum_range, ← Equiv.sum_comp (Equiv.addLeft (Fin.ofNat n j)) fun l : Fin n => f l]
  simp [Fin.val_add]

/-- exp(2πi·k/n), so that S_k is the sum of the x_j·(conjugate of the root)^j. -/
noncomputable def unitRoot (n k : Nat) : ℂ := Complex.exp ((2 * Real.pi * k / n : ℝ) * Complex.I)

theorem unitRoot_pow (n k d : Nat) :
    unitRoot n k ^ d = Complex.exp ((2 * Real.pi * (d * k : Nat) / n : ℝ) * Complex.I) := by
  rw [unitRoot, ← Complex.exp_nat_mul]
  push_cast
  ring_nf

theorem re_unitRoot_pow (n k d : Nat) : (unitRoot n k ^ d).re = Real.cos (2 * Real.pi * (d * k : Nat) / n) := by
  rw [unitRoot_pow, Complex.exp_ofReal_mul_I_re]

theorem unitRoot_pow_length {n : Nat} (hn : 0 < n) (k : Nat) : unitRoot n k ^ n = 1 := by
  have hn' : (n : ℝ) ≠ 0 := by positivity
  rw [unitRoot_pow, Complex.exp_eq_one_iff]
  refine ⟨k, ?_⟩
  push_cast
  have : (n : ℂ) ≠ 0 := by exact_mod_cast hn'
  field_simp

theorem conj_unitRoot_mul (n k : Nat) : starRingEnd ℂ (unitRoot n k) * unitRoot n k = 1 := by
  rw [unitRoot, ← Complex.normSq_eq_conj_mul_self, Complex.normSq_eq_norm_sq, Complex.norm_exp_ofReal_mul_I]
  norm_num

/-- Powers of the root depend on the exponent mod n only. -/
theorem unitRoot_pow_mod {n : Nat} (hn : 0 < n) (k d : Nat) : unitRoot n k ^ (d % n) = unitRoot n k ^ d :=
  (pow_eq_pow_mod d (unitRoot_pow_length hn k)).symm

theorem spectrum_eq (bits : List Bool) (k : Nat) :
    Reference.spectrum bits k =
      ∑ j ∈ range bits.length, (signAt bits j : ℂ) * starRingEnd ℂ (unitRoot bits.length k) ^ j := by
  refine sum_congr rfl fun j _ => ?_
  rw [← map_pow, unitRoot_pow, ← Complex.exp_conj]
  congr 2
  simp [map_ofNat]
  ring

/-- P_k is the cosine sum of the autocorrelation. -/
theorem power_eq_sum_cos {bits : List Bool} (hn : 0 < bits.length) (k : Nat) :
    Reference.power bits k = ∑ d ∈ range bits.length,
      (autocorrelation (bits.map signOfBit) d : ℝ) * Real.cos (2 * Real.pi * (d * k : Nat) / bits.length) := by
  set n := bits.length
  set z := unitRoot n k
  set x := fun j => (signAt bits j : ℂ)
  have hshift (j d : Nat) : x j * starRingEnd ℂ z ^ j * (x ((j + d) % n) * z ^ ((j + d) % n)) =
      ((signAt bits j * signAt bits ((j + d) % n) : Int) : ℂ) * z ^ d := by
    have hunit : starRingEnd ℂ z ^ j * z ^ j = 1 := by rw [← mul_pow, conj_unitRoot_mul, one_pow]
    rw [unitRoot_pow_mod hn, pow_add, Int.cast_mul]
    linear_combination (x j * x ((j + d) % n) * z ^ d) * hunit
  have hpower : (Reference.power bits k : ℂ) =
      ∑ d ∈ range n, (autocorrelation (bits.map signOfBit) d : ℂ) * z ^ d := by
    calc (Reference.power bits k : ℂ)
        = (∑ j ∈ range n, x j * starRingEnd ℂ z ^ j) * ∑ l ∈ range n, x l * z ^ l := by
          rw [Reference.power, ← Complex.mul_conj, spectrum_eq, map_sum]
          simp [x, z, n]
      _ = ∑ j ∈ range n, ∑ d ∈ range n, x j * starRingEnd ℂ z ^ j * (x ((j + d) % n) * z ^ ((j + d) % n)) := by
          rw [sum_mul]
          refine sum_congr rfl fun j _ => ?_
          rw [← mul_sum, sum_range_add_mod fun l => x l * z ^ l]
      _ = _ := by
          rw [sum_comm]
          refine sum_congr rfl fun d _ => ?_
          rw [sum_congr rfl fun j _ => hshift j d, ← sum_mul, ← Int.cast_sum, autocorrelation_eq]
  rw [← Complex.ofReal_re (Reference.power bits k), hpower, Complex.re_sum]
  refine sum_congr rfl fun d _ => ?_
  rw [← re_unitRoot_pow, ← Complex.re_ofReal_mul, Complex.ofReal_intCast]

theorem cos_mod {n : Nat} (hn : 0 < n) (d k : Nat) :
    Real.cos (2 * Real.pi * (d * k % n : Nat) / n) = Real.cos (2 * Real.pi * (d * k : Nat) / n) := by
  have h := re_unitRoot_pow n 1 (d * k % n)
  rw [unitRoot_pow_mod hn, re_unitRoot_pow, mul_one, mul_one] at h
  exact h.symm

/-- One entry of the spectrum in fixed point. -/
theorem getD_powerSpectrum (p : Nat) {bits : List Bool} {k : Nat} (hk : k < bits.length / 2) :
    (powerSpectrum p bits).getD k 0 = ∑ d ∈ range bits.length,
      autocorrelation (bits.map signOfBit) d * cosFixed p bits.length (d * k % bits.length) := by
  have hn : 0 < bits.length := by omega
  have hentry : (powerSpectrum p bits).getD k 0 = powerFixed
      ((List.range bits.length).map (autocorrelation (bits.map signOfBit)))
      ((List.range bits.length).map (cosFixed p bits.length)) bits.length k := by
    simp [powerSpectrum, hk]
  rw [hentry, powerFixed]
  change ∑ d ∈ range bits.length, _ = _
  refine sum_congr rfl fun d hd => ?_
  have hd' := mem_range.1 hd
  simp [hd', Nat.mod_lt _ hn]

/-- The enclosure of 2^p·P_k. -/
theorem abs_powerSpectrum_sub_le {p : Nat} (hp : 64 ≤ p) {bits : List Bool} {k : Nat} (hk : k < bits.length / 2) :
    |(((powerSpectrum p bits).getD k 0 : Int) : ℝ) - 2 ^ p * Reference.power bits k| ≤ powerError p bits.length := by
  have hn : 0 < bits.length := by omega
  have hterm (d : Nat) (_ : d < bits.length) :
      |((autocorrelation (bits.map signOfBit) d * cosFixed p bits.length (d * k % bits.length) : Int) : ℝ) -
        2 ^ p * (autocorrelation (bits.map signOfBit) d * Real.cos (2 * Real.pi * (d * k : Nat) / bits.length))| ≤
      bits.length * (64 * (p + 1)) := by
    rw [Int.cast_mul, mul_left_comm, ← mul_sub, abs_mul, ← cos_mod hn]
    gcongr
    · exact_mod_cast abs_autocorrelation_le bits d
    · exact abs_cosFixed_sub_le hp (Nat.mod_lt _ hn)
  rw [getD_powerSpectrum p hk, power_eq_sum_cos hn, mul_sum, Int.cast_sum]
  refine (abs_sum_range_sub_le hterm).trans_eq ?_
  rw [powerError]
  push_cast
  ring

end Sys2Proof.Machine
end

section
/-! The verdicts of DFT (44 R201): what a certified side says of P_k, and that off the bounds of the band some precision
certifies one. -/

namespace Sys2Proof.Machine
open Filter

/-! ## Comparing the enclosures -/

theorem threshold_nonneg (n : Nat) : 0 ≤ Reference.threshold n :=
  mul_nonneg n.cast_nonneg (Real.log_nonneg (by norm_num))

theorem tolerance_nonneg (cfg : Config) : 0 ≤ Reference.tolerance cfg := by
  unfold Reference.tolerance
  positivity

theorem tolerance_lt_one {cfg : Config} (hcfg : cfg.valid) : Reference.tolerance cfg < 1 := by
  obtain ⟨-, -, -, ⟨hden, hlt⟩, -⟩ := hcfg
  rw [Reference.tolerance, div_lt_one (by exact_mod_cast hden)]
  exact_mod_cast hlt

/-- The enclosures of precision `p` put P_k below c·τ. -/
def CertainlyBelow (p n : Nat) (power : Int) (c : ℝ) : Prop :=
  (power + powerError p n : ℝ) < n * (lnTwentyFixed p - lnError p) * c

/-- The enclosures of precision `p` put P_k above c·τ. -/
def CertainlyAbove (p n : Nat) (power : Int) (c : ℝ) : Prop :=
  n * (lnTwentyFixed p + lnError p) * c < (power - powerError p n : ℝ)

open Classical in
/-- `bandSide` compares the enclosure of P_k with those of the two bounds of the band. -/
theorem bandSide_eq {cfg : Config} (hcfg : cfg.valid) (p n : Nat) (power : Int) :
    bandSide cfg p n power =
      if CertainlyBelow p n power (1 - Reference.tolerance cfg) then some .below
      else if CertainlyAbove p n power (1 + Reference.tolerance cfg) then some .above
      else if CertainlyAbove p n power (1 - Reference.tolerance cfg) ∧
        CertainlyBelow p n power (1 + Reference.tolerance cfg) then some .inside
      else none := by
  obtain ⟨-, -, -, ⟨hden, -⟩, -⟩ := hcfg
  have hden' : (0 : ℝ) < cfg.dftTolDen := by exact_mod_cast hden
  have hlow : (1 - Reference.tolerance cfg) * cfg.dftTolDen = cfg.dftTolDen - cfg.dftTolNum := by
    rw [Reference.tolerance]; field_simp
  have hhigh : (1 + Reference.tolerance cfg) * cfg.dftTolDen = cfg.dftTolDen + cfg.dftTolNum := by
    rw [Reference.tolerance]; field_simp
  have hbelow (c : ℝ) : CertainlyBelow p n power c ↔ (power + powerError p n : ℝ) * cfg.dftTolDen <
      n * (lnTwentyFixed p - lnError p) * (c * cfg.dftTolDen) := by
    rw [CertainlyBelow, ← mul_assoc, mul_lt_mul_iff_left₀ hden']
  have habove (c : ℝ) : CertainlyAbove p n power c ↔ n * (lnTwentyFixed p + lnError p) * (c * cfg.dftTolDen) <
      (power - powerError p n : ℝ) * cfg.dftTolDen := by
    rw [CertainlyAbove, ← mul_assoc, mul_lt_mul_iff_left₀ hden']
  simp only [hbelow, habove, hlow, hhigh, bandSide]
  norm_cast

/-- An upper bound on the enclosures' widths together, in units of 2^-p. -/
def enclosureWidth (p n : Nat) : Nat := 2 * powerError p n + 4 * n * lnError p

section
variable {p : Nat} {bits : List Bool} {k : Nat} {c : ℝ}

theorem abs_thresholdFixed_sub_le (p n : Nat) (hc : 0 ≤ c) :
    |n * (lnTwentyFixed p : ℝ) * c - 2 ^ p * (Reference.threshold n * c)| ≤ n * lnError p * c := by
  have hfactor : n * (lnTwentyFixed p : ℝ) * c - 2 ^ p * (Reference.threshold n * c) =
      n * (lnTwentyFixed p - 2 ^ p * Real.log 20) * c := by rw [Reference.threshold]; ring
  rw [hfactor, abs_mul, abs_mul, Nat.abs_cast, abs_of_nonneg hc]
  gcongr
  exact abs_lnTwentyFixed_sub_le p

theorem power_lt_of_certainlyBelow (hp : 64 ≤ p) (hk : k < bits.length / 2) (hc : 0 ≤ c)
    (h : CertainlyBelow p bits.length ((powerSpectrum p bits).getD k 0) c) :
    Reference.power bits k < Reference.threshold bits.length * c := by
  obtain ⟨hpower, -⟩ := abs_le.1 (abs_powerSpectrum_sub_le hp hk)
  obtain ⟨-, htau⟩ := abs_le.1 (abs_thresholdFixed_sub_le p bits.length hc)
  rw [CertainlyBelow] at h
  refine lt_of_mul_lt_mul_left (a := (2 : ℝ) ^ p) ?_ (by positivity)
  linarith

theorem lt_power_of_certainlyAbove (hp : 64 ≤ p) (hk : k < bits.length / 2) (hc : 0 ≤ c)
    (h : CertainlyAbove p bits.length ((powerSpectrum p bits).getD k 0) c) :
    Reference.threshold bits.length * c < Reference.power bits k := by
  obtain ⟨-, hpower⟩ := abs_le.1 (abs_powerSpectrum_sub_le hp hk)
  obtain ⟨htau, -⟩ := abs_le.1 (abs_thresholdFixed_sub_le p bits.length hc)
  rw [CertainlyAbove] at h
  refine lt_of_mul_lt_mul_left (a := (2 : ℝ) ^ p) ?_ (by positivity)
  linarith

/-- Enclosures narrower than the gap between P_k and c·τ part the two. -/
theorem certainlyBelow_or_certainlyAbove (hp : 64 ≤ p) (hk : k < bits.length / 2) (hc : 0 ≤ c) (hc2 : c ≤ 2) {gap : ℝ}
    (hwidth : enclosureWidth p bits.length < 2 ^ p * gap)
    (hgap : gap ≤ |Reference.power bits k - Reference.threshold bits.length * c|) :
    CertainlyBelow p bits.length ((powerSpectrum p bits).getD k 0) c ∨
      CertainlyAbove p bits.length ((powerSpectrum p bits).getD k 0) c := by
  obtain ⟨hpower, hpower'⟩ := abs_le.1 (abs_powerSpectrum_sub_le hp hk)
  obtain ⟨htau, htau'⟩ := abs_le.1 (abs_thresholdFixed_sub_le p bits.length hc)
  have hln : (bits.length * lnError p : ℝ) * c ≤ bits.length * lnError p * 2 := by gcongr
  rw [enclosureWidth] at hwidth
  push_cast at hwidth
  rw [CertainlyBelow, CertainlyAbove]
  rcases le_abs.1 hgap with habove | hbelow
  · have hscaled := mul_le_mul_of_nonneg_left habove (by positivity : (0 : ℝ) ≤ 2 ^ p)
    exact .inr (by linarith)
  · have hscaled := mul_le_mul_of_nonneg_left hbelow (by positivity : (0 : ℝ) ≤ 2 ^ p)
    exact .inl (by linarith)

end

/-! ## The side of a component -/

/-- What each side of the band says of P_k. -/
def BandSide.Holds (tau tol power : ℝ) : BandSide → Prop
  | .below  => power < tau * (1 - tol)
  | .inside => tau * (1 - tol) < power ∧ power < tau * (1 + tol)
  | .above  => tau * (1 + tol) < power

section
variable {tau tol power : ℝ}

@[simp] theorem BandSide.holds_below : BandSide.below.Holds tau tol power ↔ power < tau * (1 - tol) := Iff.rfl
@[simp] theorem BandSide.holds_inside :
    BandSide.inside.Holds tau tol power ↔ tau * (1 - tol) < power ∧ power < tau * (1 + tol) := Iff.rfl
@[simp] theorem BandSide.holds_above : BandSide.above.Holds tau tol power ↔ tau * (1 + tol) < power := Iff.rfl

end

section
variable {cfg : Config} (hcfg : cfg.valid) {bits : List Bool} {k : Nat} (hk : k < bits.length / 2)
include hcfg hk

/-- A certified side is the right one. -/
theorem holds_of_certifiedSide {p : Nat} (hp : 64 ≤ p) {side : BandSide} (h : certifiedSide cfg bits k p = some side) :
    side.Holds (Reference.threshold bits.length) (Reference.tolerance cfg) (Reference.power bits k) := by
  have hnonneg := tolerance_nonneg cfg
  have hlow : 0 ≤ 1 - Reference.tolerance cfg := sub_nonneg.2 (tolerance_lt_one hcfg).le
  have hhigh : 0 ≤ 1 + Reference.tolerance cfg := by linarith
  rw [certifiedSide, bandSide_eq hcfg] at h
  split_ifs at h with hbelow habove hinside <;> cases h
  · exact power_lt_of_certainlyBelow hp hk hlow hbelow
  · exact lt_power_of_certainlyAbove hp hk hhigh habove
  · exact ⟨lt_power_of_certainlyAbove hp hk hlow hinside.1, power_lt_of_certainlyBelow hp hk hhigh hinside.2⟩

/-- A precision whose enclosures are narrower than the gap between P_k and the bounds of the band certifies a side. -/
theorem certifiedSide_isSome {p : Nat} (hp : 64 ≤ p) {gap : ℝ} (hwidth : enclosureWidth p bits.length < 2 ^ p * gap)
    (hlo : gap ≤ |Reference.power bits k - Reference.threshold bits.length * (1 - Reference.tolerance cfg)|)
    (hhi : gap ≤ |Reference.power bits k - Reference.threshold bits.length * (1 + Reference.tolerance cfg)|) :
    (certifiedSide cfg bits k p).isSome = true := by
  have hnonneg := tolerance_nonneg cfg
  have hlt := tolerance_lt_one hcfg
  have hlow := certainlyBelow_or_certainlyAbove hp hk (by linarith) (by linarith) hwidth hlo
  have hhigh := certainlyBelow_or_certainlyAbove hp hk (by linarith) (by linarith) hwidth hhi
  rw [certifiedSide, bandSide_eq hcfg]
  split_ifs with hbelow habove hinside
  · rfl
  · rfl
  · rfl
  · exact absurd ⟨hlow.resolve_left hbelow, hhigh.resolve_right habove⟩ hinside

end

theorem enclosureWidth_eq (p n : Nat) : enclosureWidth p n = enclosureWidth 0 n * (p + 1) := by
  simp only [enclosureWidth, powerError, lnError]
  ring

/-- At some of the precisions 64, 128, 256, … the enclosures are narrower than any given gap. -/
theorem exists_enclosureWidth_lt (n : Nat) {gap : ℝ} (hgap : 0 < gap) :
    ∃ j, enclosureWidth (2 ^ j * 64) n < (2 : ℝ) ^ (2 ^ j * 64) * gap := by
  set c : ℝ := 2 * (enclosureWidth 0 n : ℝ)
  have hratio : Tendsto (fun p : Nat => c * (((p + 1 : Nat) : ℝ) ^ 1 / 2 ^ (p + 1))) atTop (nhds 0) :=
    mul_zero c ▸ ((tendsto_pow_const_div_const_pow_of_one_lt 1 one_lt_two).comp (tendsto_add_atTop_nat 1)).const_mul c
  have hprecisions : Tendsto (fun j : Nat => 2 ^ j * 64) atTop atTop :=
    (tendsto_pow_atTop_atTop_of_one_lt one_lt_two).atTop_mul_const' (by norm_num)
  obtain ⟨j, hj⟩ := (hprecisions.eventually (hratio.eventually_lt_const hgap)).exists
  refine ⟨j, ?_⟩
  rw [pow_one, pow_succ, ← mul_div_assoc, div_lt_iff₀ (by positivity)] at hj
  rw [enclosureWidth_eq]
  push_cast at hj ⊢
  linarith

section
variable {cfg : Config} (hcfg : cfg.valid) {bits : List Bool} {k : Nat} (hk : k < bits.length / 2)
include hcfg hk

theorem holds_of_componentSide {side : BandSide}
    (h : componentSide cfg bits k ((powerSpectrum firstPrecision bits).getD k 0) = some side) :
    side.Holds (Reference.threshold bits.length) (Reference.tolerance cfg) (Reference.power bits k) := by
  rw [componentSide_eq_refineSide] at h
  obtain ⟨j, hj⟩ := certified_of_refineSide cfg bits k firstPrecision side h
  exact holds_of_certifiedSide hcfg hk (Nat.le_mul_of_pos_left 64 (by positivity)) hj

/-- Only where P_k is one of the bounds of the band is there no side. -/
theorem power_eq_of_componentSide_eq_none
    (h : componentSide cfg bits k ((powerSpectrum firstPrecision bits).getD k 0) = none) :
    Reference.power bits k = Reference.threshold bits.length * (1 - Reference.tolerance cfg) ∨
      Reference.power bits k = Reference.threshold bits.length * (1 + Reference.tolerance cfg) := by
  by_contra! hne
  obtain ⟨j, hj⟩ := exists_enclosureWidth_lt bits.length
    (lt_min (abs_pos.2 (sub_ne_zero.2 hne.1)) (abs_pos.2 (sub_ne_zero.2 hne.2)))
  have hsome := (refineSide_isSome_iff cfg bits k firstPrecision).2
    ⟨j, certifiedSide_isSome hcfg hk (Nat.le_mul_of_pos_left 64 (by positivity)) hj (min_le_left _ _)
      (min_le_right _ _)⟩
  rw [← componentSide_eq_refineSide, h] at hsome
  cases hsome

/-! ## The verdicts -/

/-- The verdict by where the real P_k lies: below the band, above it, or in it, its bounds among it. -/
theorem dftVerdict_eq (draw : Bool) :
    dftVerdict cfg bits k ((powerSpectrum firstPrecision bits).getD k 0) draw =
      if Reference.power bits k < Reference.threshold bits.length * (1 - Reference.tolerance cfg) then true
      else if Reference.threshold bits.length * (1 + Reference.tolerance cfg) < Reference.power bits k then false
      else draw := by
  have hband := mul_nonneg (threshold_nonneg bits.length) (tolerance_nonneg cfg)
  rw [dftVerdict]
  rcases hside : componentSide cfg bits k ((powerSpectrum firstPrecision bits).getD k 0) with _ | side
  · rcases power_eq_of_componentSide_eq_none hcfg hk hside with hbound | hbound <;>
      rw [if_neg (by linarith), if_neg (by linarith), sideVerdict_none]
  · have hholds := holds_of_componentSide hcfg hk hside
    cases side with
    | below => rw [if_pos (BandSide.holds_below.1 hholds), sideVerdict_below]
    | inside =>
      obtain ⟨hlo, hhi⟩ := BandSide.holds_inside.1 hholds
      rw [if_neg hlo.not_gt, if_neg hhi.not_gt, sideVerdict_inside]
    | above =>
      have habove := BandSide.holds_above.1 hholds
      rw [if_neg (by linarith), if_pos habove, sideVerdict_above]

end

end Sys2Proof.Machine

open Sys2Proof Sys2Proof.Machine

/-- Settles O31: a certified side is the right one, and only on a bound of the band, where the verdict is the draw, does
no precision certify one. -/
theorem dftVerdictIsExactOutsideTheBand : Obligations.DftVerdictIsExactOutsideTheBand := by
  unfold Obligations.DftVerdictIsExactOutsideTheBand
  intro cfg bits hcfg _ power tau tol
  have hband : 0 ≤ tau * tol := mul_nonneg (threshold_nonneg bits.length) (tolerance_nonneg cfg)
  have hverdict {k : Nat} (hk : k < bits.length / 2) (draw : Bool) :
      dftVerdict cfg bits k (power.getD k 0) draw = if Reference.power bits k < tau * (1 - tol) then true
        else if tau * (1 + tol) < Reference.power bits k then false else draw := dftVerdict_eq hcfg hk draw
  refine ⟨fun k draw hk => ?_, fun draws => ?_⟩
  · rw [hverdict hk, lt_abs, abs_le]
    constructor
    · rintro (habove | hbelow)
      · rw [if_neg (by linarith), if_pos (by linarith)]
        exact iff_of_false Bool.false_ne_true (by linarith)
      · rw [if_pos (by linarith)]
        exact iff_of_true rfl (by linarith)
    · rintro ⟨hlo, hhi⟩
      rw [if_neg (by linarith), if_neg (by linarith)]
  · rw [dftCount_eq_card, ← Set.ncard_coe_finset]
    constructor
    · refine Set.ncard_le_ncard (fun k hk => ?_) (Finset.finite_toSet _)
      obtain ⟨hlt, hbelow⟩ := hk
      rw [Finset.mem_coe, Finset.mem_filter, Finset.mem_range, hverdict hlt, if_pos hbelow]
      exact ⟨hlt, rfl⟩
    · refine Set.ncard_le_ncard (fun k hk => ?_) ((Set.finite_lt_nat _).subset fun k hk => hk.1)
      rw [Finset.mem_coe, Finset.mem_filter, Finset.mem_range] at hk
      obtain ⟨hlt, hone⟩ := hk
      refine ⟨hlt, le_of_not_gt fun habove => ?_⟩
      rw [hverdict hlt, if_neg (by linarith), if_pos habove] at hone
      cases hone
end

section
/-! Berlekamp-Massey against the rule's iterations (45 R216), that its length is minimal (45 R215, R217), and the
completion of BM (45 R218). -/

namespace Sys2Proof.Machine

open Reference

/-! ## The machine's working state and the rule's -/

/-- The polynomial 1 has the coefficient 1 at 0 alone. -/
theorem polyCoeff_one : polyCoeff [true] = fun i => i == 0 := by
  funext i
  cases i <;> simp [polyCoeff]

/-- The working state by its coefficients: C, B, L and m. -/
def BmState.toMassey (st : BmState) : Massey := { c := polyCoeff st.c, b := polyCoeff st.b, l := st.l, m := st.m }

/-- One iteration of the rule (45 R216). -/
theorem Reference.massey_succ (s : List Bool) (n : Nat) :
    massey s (n + 1) =
      let old := massey s n
      let c := addShifted old.c old.b ((n : Int) - old.m).toNat
      if discrepancyAt s n old.l old.c = false then old
      else if 2 * old.l ≤ n then { c := c, b := old.c, l := n + 1 - old.l, m := n }
      else { old with c := c } := rfl

/-- One iteration of the machine is one of the rule. -/
theorem BmState.Reads.toMassey_next {s : List Bool} {n : Nat} {st : BmState} (h : st.Reads s n) (hn : n < s.length)
    (hst : st.toMassey = massey s n) : (st.next (s.getD n false)).toMassey = massey s (n + 1) := by
  rw [massey_succ, ← hst, BmState.next, h.discrepancy_eq hn, h.n_eq]
  cases hd : discrepancyAt s n st.l (polyCoeff st.c) with
  | false => simp [BmState.toMassey, hd]
  | true => by_cases hshort : 2 * st.l ≤ n <;> simp [BmState.toMassey, hd, hshort, polyCoeff_add_shift]

/-- After the first `n` bits the machine's C, B, L and m are the rule's. -/
theorem BmState.toMassey_foldl (s : List Bool) {n : Nat} (hn : n ≤ s.length) :
    ((s.take n).foldl BmState.next BmState.init).toMassey = massey s n := by
  induction n with
  | zero => simp [BmState.toMassey, BmState.init, massey, polyCoeff_one]
  | succ n ih =>
    have hbit : s[n] = s.getD n false := (List.getD_eq_getElem s false hn).symm
    rw [List.take_succ_eq_append_getElem hn, List.foldl_concat, hbit]
    exact (BmState.foldl_reads s (by omega)).toMassey_next hn (ih (by omega))

/-! ## No shorter register generates the sequence -/

/-- The connection polynomial 1 + c_1·x + … + c_l·x^l of a register. -/
def connection (l : Nat) (c : Nat → Bool) : Nat → Bool := fun i => i == 0 || (decide (i ≤ l) && c i)

theorem connection_zero (l : Nat) (c : Nat → Bool) : connection l c 0 = true := rfl

theorem connection_of_lt {l i : Nat} (c : Nat → Bool) (h : l < i) : connection l c i = false := by
  simp [connection, Nat.ne_zero_of_lt h, h]

/-- A register that generates the sequence has no discrepancy at the bits past its length. -/
theorem Reference.Generates.discrepancyAt_connection {l : Nat} {c : Nat → Bool} {s : List Bool} (h : Generates l c s)
    {j : Nat} (hl : l ≤ j) (hj : j < s.length) : discrepancyAt s j l (connection l c) = false := by
  have hsum : xorSum (fun i => connection l c (i + 1) && s.getD (j - (i + 1)) false) l = s.getD j false := by
    rw [h j hl hj]
    exact xorSum_congr fun i hi => by simp [connection, Nat.succ_le_of_lt hi]
  rw [discrepancyAt, hsum, Bool.xor_self]

theorem coeff_bitSeries (f : Nat → Bool) (i : Nat) : PowerSeries.coeff i (bitSeries f) = bitOf (f i) :=
  PowerSeries.coeff_mk ..

/-- In a product with A of degree at most `d`, where F vanishes on the `d` coefficients before `k`, only a_0 meets the
coefficients of F up to `k`. -/
theorem coeff_bitSeries_mul {a : Nat → Bool} {d k : Nat} {F : PowerSeries (ZMod 2)}
    (hdeg : ∀ i, d < i → a i = false) (hF : ∀ j, k - d ≤ j → j < k → PowerSeries.coeff j F = 0) :
    PowerSeries.coeff k (bitSeries a * F) = bitOf (a 0) * PowerSeries.coeff k F := by
  rw [PowerSeries.coeff_mul, Finset.Nat.sum_antidiagonal_eq_sum_range_succ_mk, Finset.sum_range_succ',
    Finset.sum_eq_zero, zero_add, coeff_bitSeries, Nat.sub_zero]
  intro i hi
  have hik : i < k := Finset.mem_range.1 hi
  rcases Nat.lt_or_ge d (i + 1) with hlt | hle
  · rw [coeff_bitSeries, hdeg (i + 1) hlt, bitOf_false, zero_mul]
  · rw [hF (k - (i + 1)) (by omega) (by omega), mul_zero]

/-- The C' of a register shorter than L and the B of the iterations exclude each other: in B·C'·(1 + x·S) the
coefficient at m + 1 is 1 by the failure of B, and 0 as C' generates the bits up to s_m. -/
theorem MasseyInv.l_le_of_generates {s : List Bool} {k l : Nat} {c b : Nat → Bool}
    (h : MasseyInv s s.length k l c b) {l' : Nat} {c' : Nat → Bool} (hgen : Generates l' c' s) : l ≤ l' := by
  by_contra! hshort
  have hlk := h.l_le
  have hkn := h.k_le
  have hvanish (j : Nat) (hj : k - (k - l) ≤ j) (hjk : j ≤ k) :
      PowerSeries.coeff j (bitSeries (connection l' c') * startedSeries s) = 0 := by
    obtain ⟨i, rfl⟩ : ∃ i, j = i + 1 := ⟨j - 1, by omega⟩
    rw [coeff_mul_startedSeries s (connection_zero l' c') (fun _ => connection_of_lt c') (by omega),
      hgen.discrepancyAt_connection (by omega) (by omega), bitOf_false]
  have hone := coeff_bitSeries_mul (fun _ => connection_of_lt c' (l := l'))
    fun j hj hjk => h.b_generates j (by omega) hjk
  have hzero := coeff_bitSeries_mul h.b_degree fun j hj hjk => hvanish j hj hjk.le
  rw [hvanish k (by omega) le_rfl, mul_zero] at hzero
  rw [h.b_fails, connection_zero, bitOf_true, one_mul, mul_left_comm, hzero] at hone
  exact zero_ne_one hone

/-! ## The degree (45 R218) -/

theorem polyDegree_concat_false (c : List Bool) : polyDegree (c ++ [false]) = polyDegree c := by simp [polyDegree]

theorem polyDegree_concat_true (c : List Bool) : polyDegree (c ++ [true]) = c.length := by simp [polyDegree]

/-- A 0 on top changes no coefficient. -/
theorem polyCoeff_concat_false (c : List Bool) (i : Nat) : polyCoeff (c ++ [false]) i = polyCoeff c i := by
  rcases Nat.lt_or_ge i c.length with hlt | hge
  · exact List.getD_append _ _ _ _ hlt
  · rw [polyCoeff, polyCoeff, List.getD_append_right _ _ _ _ hge, List.getD_eq_default _ _ hge]
    cases i - c.length <;> rfl

/-- The degree of a polynomial that is not 0 is the index of its highest 1. -/
theorem polyDegree_spec {c : List Bool} (h : true ∈ c) :
    polyCoeff c (polyDegree c) = true ∧ ∀ i, polyDegree c < i → polyCoeff c i = false := by
  induction c using List.reverseRecOn with
  | nil => cases h
  | append_singleton c top ih =>
    cases top with
    | false =>
      simp only [polyDegree_concat_false, polyCoeff_concat_false]
      exact ih (by simpa using h)
    | true =>
      rw [polyDegree_concat_true]
      exact ⟨by simp [polyCoeff], fun i hi => List.getD_eq_default _ _ (by simpa using hi)⟩

/-- The C of Berlekamp-Massey is not 0, as c_0 = 1. -/
theorem true_mem_berlekampMassey (s : List Bool) : true ∈ (berlekampMassey s).2 := by
  obtain ⟨hzero, -⟩ := berlekampMassey_generates s
  cases hc : (berlekampMassey s).2 with
  | nil => simp [hc] at hzero
  | cons a c =>
    rw [hc] at hzero
    exact hzero ▸ List.mem_cons_self

end Sys2Proof.Machine

open Sys2Proof Sys2Proof.Machine

/-- Settles O33: the machine's working state stays the rule's, iteration by iteration. -/
theorem berlekampMasseyIsTheVariantOfTheSpec : Obligations.BerlekampMasseyIsTheVariantOfTheSpec := by
  unfold Obligations.BerlekampMasseyIsTheVariantOfTheSpec
  intro s
  have hstate := BmState.toMassey_foldl s le_rfl
  rw [List.take_length] at hstate
  rw [← hstate]
  exact ⟨rfl, fun _ => rfl⟩

/-- Settles O34: the properties of `berlekampMassey_generates`. -/
theorem berlekampMasseyGeneratesTheBlock : Obligations.BerlekampMasseyGeneratesTheBlock := by
  unfold Obligations.BerlekampMasseyGeneratesTheBlock
  exact berlekampMassey_generates

/-- Settles O35: the invariant of the iterations leaves no room for a shorter register. -/
theorem berlekampMasseyLengthIsMinimal : Obligations.BerlekampMasseyLengthIsMinimal := by
  unfold Obligations.BerlekampMasseyLengthIsMinimal
  intro s l c hgen
  have hreads := BmState.foldl_reads s le_rfl
  rw [List.take_length] at hreads
  obtain ⟨k, -, hinv⟩ := hreads.inv
  exact hinv.l_le_of_generates hgen

/-- Settles O32: the completion is `bmEffects`, whose polynomial has its highest 1 at its degree. -/
theorem bmCompletes : Obligations.BmCompletes := by
  unfold Obligations.BmCompletes
  intro s bits hflight hm hlen hbits n l c
  obtain ⟨htop, habove⟩ := polyDegree_spec (true_mem_berlekampMassey bits)
  have hframe := Memory.writeSeq_sameOutside s.polymem 0 ((List.range (n + 1)).map c)
  rw [List.length_map, List.length_range] at hframe
  have hstate : (bmEffects bits s).state = 0 := rfl
  exact ⟨_, polyDegree (berlekampMassey bits).2, exec_bm_busy (State.busy_of_inFlight hflight) hm hlen hbits,
    State.complete_completedFrom s _, rfl, fun _ hi => bmEffects_read bits s hi, hframe, by simp [hstate],
    by simp [hstate], rfl, htop, habove, rfl⟩
end

section
/-! The categories of LINCOMP (45 R220): the counts over the blocks, and the published statistic. -/

namespace Sys2Proof.Machine

/-! ## The integer category -/

/-- D(L, M) with the quotients of integers. -/
theorem complexityDeviation_eq (l m : Nat) :
    complexityDeviation l m = if m % 2 = 0 then (l : Int) - (m : Int) / 2 else ((m : Int) + 1) / 2 - l := by
  simp [complexityDeviation]

/-- The category as an integer. -/
theorem complexityCategory_cast (l m : Nat) :
    (complexityCategory l m : Int) = min 6 (max 0 (complexityDeviation l m + 3)) := by
  rw [complexityCategory, Int.toNat_of_nonneg (by omega)]

/-! ## The counts over the blocks -/

/-- Block i starts at bit i·size. -/
theorem blocksOf_eq_map (size count : Nat) (bits : List Bool) :
    blocksOf size count bits = (List.range count).map fun i => (bits.drop (i * size)).take size := by
  induction count generalizing bits with
  | zero => rfl
  | succ count ih =>
    rw [blocksOf, ih, List.range_succ_eq_map]
    simp [Nat.succ_mul, Nat.add_comm]

/-- How many of the categories `f 0`, …, `f (count - 1)` are `k`. -/
theorem count_map_range (f : Nat → Nat) (k count : Nat) :
    ((List.range count).map f).count k = ((Finset.range count).filter fun i => (f i : Int) = k).card := by
  simp only [Nat.cast_inj]
  exact countP_map_range f (· = k) count

/-- The results of LINCOMP over the blocks whose categories are `f 0`, …, `f (count - 1)`. -/
theorem lincompResults_map_range (f : Nat → Nat) (count : Nat) :
    let nu (k : Int) := BitVec.ofNat 32 ((Finset.range count).filter fun i => (f i : Int) = k).card
    lincompResults ((List.range count).map f) =
      { res0 := BitVec.ofNat 32 count, res1 := nu 0, res2 := nu 1, res3 := nu 2, res4 := nu 3, res5 := nu 4,
        res6 := nu 5, res7 := nu 6 } := by
  simp only [lincompResults, count_map_range, List.length_map, List.length_range]
  rfl

/-! ## The published statistic -/

/-- ε = (M/3 + 2/9)/2^M, how far T is from an integer (45 R220). -/
def complexityOffset (m : Nat) : ℚ := (m / 3 + 2 / 9) / 2 ^ m

theorem complexityOffset_pos (m : Nat) : 0 < complexityOffset m := by
  unfold complexityOffset
  positivity

theorem complexityOffset_lt_half {m : Nat} (hm : 1 ≤ m) : complexityOffset m < 1 / 2 := by
  obtain ⟨k, rfl⟩ : ∃ k, m = k + 1 := ⟨m - 1, by omega⟩
  have hpow : ((k + 1 : Nat) : ℚ) ≤ 2 ^ k := by exact_mod_cast Nat.lt_two_pow_self
  rw [complexityOffset, div_lt_iff₀ (by positivity), pow_succ]
  push_cast at hpow ⊢
  linarith

/-- T is D + ε for even M and D - ε for odd M. -/
theorem complexityStatistic_eq (l m : Nat) :
    Reference.complexityStatistic l m =
      if m % 2 = 0 then complexityDeviation l m + complexityOffset m
      else complexityDeviation l m - complexityOffset m := by
  have hmean : Reference.meanComplexity m = m / 2 + (9 + (-1) ^ (m + 1)) / 36 - complexityOffset m := rfl
  rw [Reference.complexityStatistic, hmean, complexityDeviation_eq]
  obtain ⟨k, hk⟩ := Nat.even_or_odd' m
  have hsign : (-1 : ℚ) ^ (2 * k) = 1 := (even_two_mul k).neg_one_pow
  rcases hk with rfl | rfl
  · have heven : 2 * k % 2 = 0 := by omega
    have hhalf : ((2 * k : Nat) : Int) / 2 = k := by omega
    rw [if_pos heven, if_pos heven, hhalf, pow_succ, hsign]
    push_cast
    ring
  · have hodd : ¬(2 * k + 1) % 2 = 0 := by omega
    have hhalf : (((2 * k + 1 : Nat) : Int) + 1) / 2 = k + 1 := by omega
    rw [if_neg hodd, if_neg hodd, hhalf, pow_succ, pow_succ, pow_succ, hsign]
    push_cast
    ring

/-- The statistic lies within ε of D. -/
theorem abs_complexityStatistic_sub_deviation (l m : Nat) :
    |Reference.complexityStatistic l m - complexityDeviation l m| = complexityOffset m := by
  rw [complexityStatistic_eq]
  split
  · rw [add_sub_cancel_left, abs_of_pos (complexityOffset_pos m)]
  · rw [sub_sub_cancel_left, abs_neg, abs_of_pos (complexityOffset_pos m)]

/-- Everything within 1/2 of the integer d is on d's side of each bound b + 1/2. -/
theorem le_add_half_iff {t : ℚ} {d : Int} (h : |t - d| < 1 / 2) (b : Int) : t ≤ b + 1 / 2 ↔ d ≤ b := by
  obtain ⟨hlo, hhi⟩ := abs_lt.1 h
  constructor
  · intro ht
    have hlt : (d : ℚ) < b + 1 := by linarith
    exact Int.lt_add_one_iff.1 (by exact_mod_cast hlt)
  · intro hd
    have hle : (d : ℚ) ≤ b := by exact_mod_cast hd
    linarith

/-- The bucket of everything within 1/2 of the integer d. -/
theorem bucket_of_abs_sub_lt_half {t : ℚ} {d : Int} (h : |t - d| < 1 / 2) :
    (Reference.bucket t : Int) = min 6 (max 0 (d + 3)) := by
  have hbound (x : ℚ) (b : Int) (hx : x = b + 1 / 2 := by norm_num) : t ≤ x ↔ d ≤ b := hx ▸ le_add_half_iff h b
  simp only [Reference.bucket, hbound (-5 / 2) (-3), hbound (-3 / 2) (-2), hbound (-1 / 2) (-1), hbound (1 / 2) 0,
    hbound (3 / 2) 1, hbound (5 / 2) 2]
  split_ifs <;> omega

end Sys2Proof.Machine

open Sys2Proof Sys2Proof.Machine

/-- Settles O37: block i is the M bits from i·M (`blocksOf_eq_map`), and each count is over the indices of the
blocks. -/
theorem lincompCompletes : Obligations.LincompCompletes := by
  unfold Obligations.LincompCompletes
  intro s bits hflight hm n m count hlen hbits l d nu
  have hexec := lincomp_completesOver.exec_eq (State.busy_of_inFlight hflight) hm hlen hbits
  have hstate : (lincompEffects bits s).state = 0 := rfl
  have hcategory (i : Nat) : min 6 (max 0 (d i + 3)) =
      (complexityCategory (berlekampMassey ((bits.drop (i * m)).take m)).1 m : Int) := by
    rw [complexityCategory_cast, complexityDeviation_eq]
  refine ⟨_, hexec, State.complete_completedFrom s _, rfl, rfl, by simp [hstate], by simp [hstate], rfl, ?_⟩
  rw [State.complete_res, lincompEffects, blocksOf_eq_map, List.map_map]
  simp only [nu, hcategory]
  exact lincompResults_map_range _ count

/-- Settles O38: T lies within ε of D, so an error below 1/2 - ε keeps it within 1/2 of D. -/
theorem categoryIsThePublishedBucket : Obligations.CategoryIsThePublishedBucket := by
  unfold Obligations.CategoryIsThePublishedBucket
  intro l m hm ε d
  have hd : d = complexityDeviation l m := (complexityDeviation_eq l m).symm
  rw [hd]
  refine ⟨⟨complexityOffset_pos m, complexityOffset_lt_half hm⟩, complexityStatistic_eq l m,
    complexityCategory_cast l m, fun t ht => ?_⟩
  have hnear : |t - complexityDeviation l m| < 1 / 2 :=
    calc |t - complexityDeviation l m|
        ≤ |t - Reference.complexityStatistic l m| + |Reference.complexityStatistic l m - complexityDeviation l m| :=
          abs_sub_le ..
      _ < 1 / 2 - ε + ε := add_lt_add_of_lt_of_le ht (abs_complexityStatistic_sub_deviation l m).le
      _ = 1 / 2 := sub_add_cancel ..
  have hbucket := bucket_of_abs_sub_lt_half hnear
  rw [← complexityCategory_cast] at hbucket
  exact_mod_cast hbucket
end

section
/-! Whose step comes next, the four endings of a command, and where a step can stop (60_exceptions.md sections 1, 2, 4, 5
and 6). -/

namespace Sys2Proof.Machine

/-! ## The host's turn (60_exceptions R252) -/

section
variable {s : State} {e : Input} {rest : List Input}

/-- With no command in flight the host's next input is the step. -/
theorem step_of_idle (hb : s.busy = false) (hin : s.inputs = e :: rest) :
    step s = inputStep e { s with inputs := rest } := by
  have hnext : s.nextAgent = some .host := by simp only [State.nextAgent, hb, hin]
  have hturn : s.takeTurn = s := by simp only [State.takeTurn, hb]
  simp only [step, agentStep, hnext, hturn, hostStep, hin]

/-- At a race given to the host its next input is the step, and the entry of `turns` is used up (log entry 2). -/
theorem step_of_host_turn {more : List Agent} (hb : s.busy = true) (hin : s.inputs = e :: rest)
    (hturns : s.turns = .host :: more) : step s = inputStep e { s with inputs := rest, turns := more } := by
  have hnext : s.nextAgent = some .host := by simp only [State.nextAgent, hb, hin, hturns, List.headD_cons]
  have hturn : s.takeTurn = { s with turns := more } := by simp only [State.takeTurn, hb, hin, hturns, List.tail_cons]
  simp only [step, agentStep, hnext, hturn, hostStep, hin]

end

/-! ## The endings of a command (60_exceptions R240) -/

/-- Only RANK, DFT and LINCOMP can end with InsufficientData (60_exceptions R247). -/
theorem eq_of_commandShort {i : Instr} {o : OpSet} (h : commandShort i o = true) :
    i = .rank ∨ i = .dft ∨ i = .lincomp := by
  cases i with
  | rank => exact .inl rfl
  | dft => exact .inr (.inl rfl)
  | lincomp => exact .inr (.inr rfl)
  | _ => exact absurd h Bool.false_ne_true

/-! ## Where a step can stop (10_state R54) -/

/-- A window read goes on, or is the fault of an unmarked bit with no command in flight. -/
theorem readWindow_cases (sp : Space) (off j : Nat) (s : State) :
    (∃ t, readWindow sp off j s = .next t) ∨
    (∃ a, readWindow sp off j s = .fault (.uninitRead sp a) ∧ s.busy = false ∧
      ((s.mem sp).wf → (s.mem sp).read a = none)) := by
  unfold readWindow
  split
  · exact .inl ⟨_, rfl⟩
  · next hb =>
    split
    · exact .inl ⟨_, rfl⟩
    · rcases withBits_cases sp (32 * j) 32 s _ with ⟨bs, -, he⟩ | ⟨a, -, he, -, hnone⟩
      · exact .inl ⟨_, he⟩
      · exact .inr ⟨a, he, Bool.eq_false_of_not_eq_true hb, hnone⟩

/-- A write to CMD always goes on. -/
theorem writeCmd_next (w : Word) (s : State) : ∃ t, writeCmd w s = .next t := by
  cases hb : s.busy with
  | true => exact ⟨s.refuse, by rw [writeCmd, if_pos hb]⟩
  | false =>
    obtain ⟨t, ht, -⟩ := writeCmd_idle hb w
    exact ⟨t, ht⟩

/-- An input goes on, or is a window read with no command in flight that meets an unmarked bit. -/
theorem inputStep_next_or_unmarked (e : Input) (s : State) :
    (∃ t, inputStep e s = .next t) ∨
    (∃ sp j a, windowHolds sp j ∧ e = hostRead s.cfg (windowOffset sp j) ∧ s.busy = false ∧
      inputStep e s = .fault (.uninitRead sp a) ∧ ((s.mem sp).wf → (s.mem sp).read a = none)) := by
  rcases inputStep_cases e s with ⟨-, ho⟩ | ⟨r, ho⟩ | ⟨v, -, ho⟩ | ⟨v, -, ho⟩ | ⟨v, -, ho⟩ | ⟨r, v, -, ho⟩ |
    ⟨sp, j, hw, ⟨he, ho⟩ | ⟨v, -, ho⟩⟩
  · exact .inl ⟨_, ho⟩
  · exact .inl ⟨_, ho⟩
  · exact .inl ⟨_, ho⟩
  · exact .inl ⟨_, ho⟩
  · exact .inl (ho ▸ writeCmd_next v _)
  · exact .inl ⟨_, ho⟩
  · rcases readWindow_cases sp (windowOffset sp j) j s with ⟨t, ht⟩ | ⟨a, ha, hb, hnone⟩
    · exact .inl ⟨t, ho.trans ht⟩
    · exact .inr ⟨sp, j, a, hw, he, hb, ho.trans ha, hnone⟩
  · exact .inl ⟨_, ho⟩

/-- With both memories canonical, so is each of them. -/
theorem State.mem_wf_of_both {s : State} (hm : s.bitmem.wf) (hp : s.polymem.wf) (sp : Space) : (s.mem sp).wf := by
  cases sp
  · exact hm
  · exact hp

end Sys2Proof.Machine

open Sys2Proof Sys2Proof.Machine

/-- Settles O17: the cases of an issue (`issue_cases`), and those of a completion (`exec_completion`). -/
theorem commandEndsInOneOfFourWays : Obligations.CommandEndsInOneOfFourWays := by
  unfold Obligations.CommandEndsInOneOfFourWays
  constructor
  · intro s i hb hwf
    by_cases hi : i = .nop
    · subst hi
      exact ⟨_, exec_nop s, .inr (.inr (.inl ⟨rfl, rfl, rfl, rfl, rfl⟩))⟩
    · rw [exec_idle hb i hi]
      rcases issue_cases i (commandChecks i) (commandShort i) s with ⟨c, -, ho⟩ | ⟨-, hshort, ho⟩ | ⟨-, -, ho⟩
      · exact ⟨_, ho, .inl ⟨rfl, rfl, rfl, rfl, hi⟩⟩
      · exact ⟨_, ho, .inr (.inl ⟨rfl, rfl, rfl, rfl, eq_of_commandShort hshort⟩)⟩
      · have hflight := accept_inFlight hwf hi s
        exact ⟨_, ho, .inr (.inr (.inr ⟨State.busy_of_inFlight hflight, hflight, rfl, rfl, rfl⟩))⟩
  · intro s i hflight
    rcases exec_completion (State.busy_of_inFlight hflight) i (State.inFlight_ne_nop hflight) with
      ⟨e, he, -, -⟩ | ⟨sp, a, he, -, -⟩
    · exact .inl ⟨_, he, State.complete_completedFrom s e⟩
    · exact .inr ⟨sp, a, he⟩

/-- Settles O58: idling goes on, an input stops only at a window read (`inputStep_next_or_unmarked`), a completion only at
a bit that its command reads (`exec_completion`). -/
theorem onlyUnmarkedReadsStop : Obligations.OnlyUnmarkedReadsStop := by
  unfold Obligations.OnlyUnmarkedReadsStop
  intro s
  rcases step_cases s with ⟨-, -, ho⟩ | ⟨e, rest, -, hnext, ho⟩ | ⟨i, hi, hnext, ho⟩
  · exact .inl ⟨s, ho⟩
  · rw [State.takeTurn_eq] at ho
    rcases inputStep_next_or_unmarked e (s.withHost rest s.responses s.takeTurn.turns) with
      ⟨t, ht⟩ | ⟨sp, j, a, hw, rfl, hb, hfault, hnone⟩
    · exact .inl ⟨t, ho.trans ht⟩
    · exact .inr ⟨sp, a, ho.trans hfault, fun hm hp => hnone (State.mem_wf_of_both (s := s) hm hp sp),
        .inr ⟨hb, j, hw, hnext⟩⟩
  · rw [State.takeTurn_eq_withHost] at ho
    have hb : (s.withHost s.inputs s.responses s.takeTurn.turns).busy = true := State.busy_of_inFlight hi
    rcases exec_completion hb i (State.inFlight_ne_nop hi) with ⟨e, he, -, -⟩ | ⟨sp, a, hfault, hreads, hnone⟩
    · exact .inl ⟨_, ho.trans he⟩
    · exact .inr ⟨sp, a, ho.trans hfault, fun hm hp => hnone (State.mem_wf_of_both (s := s) hm hp sp),
        .inl ⟨i, hi, hnext, hreads⟩⟩

/-- Settles O5: the host's input is a write to CMD, whose word is the encoding of the command. -/
theorem stepRunsTheDecodedCommand : Obligations.StepRunsTheDecodedCommand := by
  unfold Obligations.StepRunsTheDecodedCommand
  intro s w i rest hb hin hd
  obtain ⟨hwf, rfl⟩ := encode_of_decode hd
  have hidle : (s.withHost rest (.written 0x010 :: s.responses) s.turns).busy = false := hb
  calc step s = inputStep (hostWrite s.cfg 0x010 (encode i)) { s with inputs := rest } := step_of_idle hb hin
    _ = writeCmd (encode i) (s.withHost rest (.written 0x010 :: s.responses) s.turns) :=
      inputStep_writeCmd (encode i) { s with inputs := rest }
    _ = exec i (s.withHost rest (.written 0x010 :: s.responses) s.turns) := (exec_eq_writeCmd hidle hwf).symm

/-- Settles O7: the host's turn alone and at a race, and the idle step. -/
theorem stepTakesTheHostsInputOrIdles : Obligations.StepTakesTheHostsInputOrIdles := by
  unfold Obligations.StepTakesTheHostsInputOrIdles
  refine ⟨fun s e rest => step_of_idle, fun s e rest more => step_of_host_turn, fun s hb hin => ?_⟩
  have hnext : s.nextAgent = none := by simp only [State.nextAgent, hb, hin]
  simp only [step, agentStep, hnext]

end

section
/-! The resets: the region an abort leaves unmarked (70_reset R273), and the state a hardware reset leaves (R270). -/

namespace Sys2Proof.Machine

variable {s : State} {i : Instr}

/-! ## The region of an aborted command (70_reset R273) -/

/-- An abort concerns NBITS bits of BITMEM for a command that writes there. -/
theorem abortedBits_of_ne_nop (hi : i ≠ .nop) (o : OpSet) :
    abortedBits i o = if i ∈ [.rank, .dft, .bm, .lincomp] then 0 else o.nbits.toNat := by
  cases i with
  | nop => exact absurd rfl hi
  | rank | dft | bm | lincomp => rfl
  | _ => exact (if_neg (by simp)).symm

/-- An abort concerns the coefficients 0..LEN for BM and none for another command. -/
theorem abortedCoeffs_eq (i : Instr) (o : OpSet) : abortedCoeffs i o = if i = .bm then o.len.toNat + 1 else 0 := by
  cases i with
  | bm => exact (if_pos rfl).symm
  | _ => exact (if_neg Instr.noConfusion).symm

theorem State.abort_of_inFlight (h : s.inFlight = some i) :
    s.abort = { s with
      bitmem := s.bitmem.unmark s.op.dst.toNat (abortedBits i s.op)
      polymem := s.polymem.unmark 0 (abortedCoeffs i s.op) } := by
  simp only [State.abort, h]

theorem State.read_softReset_bitmem (h : s.inFlight = some i) (a : Nat) :
    s.softReset.bitmem.read a =
      if s.op.dst.toNat ≤ a ∧ a < s.op.dst.toNat + abortedBits i s.op then none else s.bitmem.read a := by
  rw [State.softReset_bitmem, State.abort_of_inFlight h, Memory.read_unmark]

theorem State.read_softReset_polymem (h : s.inFlight = some i) (a : Nat) :
    s.softReset.polymem.read a = if i = .bm ∧ a ≤ s.op.len.toNat then none else s.polymem.read a := by
  rw [State.softReset_polymem, State.abort_of_inFlight h, Memory.read_unmark, abortedCoeffs_eq]
  by_cases hi : i = .bm <;> simp [hi]

/-- A write to CTRL with bit 1 set is the soft reset (10_state R33). -/
theorem inputStep_writeCtrl_softReset {v : Word} (hv : v.getLsbD 1 = true) (s : State) :
    inputStep (hostWrite s.cfg 0x008 v) s = .next (s.respond (.written 0x008)).softReset := by
  rw [inputStep_write (r := .ctrl) rfl Reg.noConfusion, State.writeReg, State.writeCtrl, if_pos hv]

/-! ## The state after a hardware reset (70_reset R270) -/

@[simp] theorem State.hardReset_ctrlWord (s : State) : s.hardReset.ctrlWord = 0 := rfl
@[simp] theorem State.hardReset_statusWord (s : State) : s.hardReset.statusWord = 0 := rfl
@[simp] theorem State.hardReset_inFlight (s : State) : s.hardReset.inFlight = none := rfl
@[simp] theorem State.hardReset_irq (s : State) : s.hardReset.irq = false := rfl

/-- A hardware reset changes nothing of State.reset. -/
theorem State.hardReset_reset : State.reset.hardReset = State.reset := rfl

theorem State.reset_memoriesInv : State.reset.MemoriesInv where
  cfg_valid := by decide
  bitmem_wf := List.Pairwise.nil
  polymem_wf := List.Pairwise.nil
  bitmem_bound := nofun
  polymem_bound := nofun

end Sys2Proof.Machine

open Sys2Proof Sys2Proof.Machine

/-- Settles O48: the soft reset aborts the command in flight, so a bit of its region reads as unmarked and every other
bit as before. -/
theorem softResetUnmarksTheAbortedRegion : Obligations.SoftResetUnmarksTheAbortedRegion := by
  unfold Obligations.SoftResetUnmarksTheAbortedRegion
  intro s i v hflight hv region
  have hregion : abortedBits i s.op = region := abortedBits_of_ne_nop (State.inFlight_ne_nop hflight) s.op
  have hread (a : Nat) : (s.respond (.written 0x008)).softReset.bitmem.read a =
      if s.op.dst.toNat ≤ a ∧ a < s.op.dst.toNat + region then none else s.bitmem.read a :=
    hregion ▸ State.read_softReset_bitmem (s := s.respond (.written 0x008)) hflight a
  refine ⟨_, inputStep_writeCtrl_softReset hv s, rfl, rfl, rfl, rfl, rfl, rfl, fun a hlo hhi => ?_, fun a ha => ?_,
    State.read_softReset_polymem (s := s.respond (.written 0x008)) hflight⟩
  · rw [hread, if_pos ⟨hlo, hhi⟩]
  · rw [hread, if_neg (by omega)]

/-- Settles O49: State.reset is itself a state after a hardware reset, so one case covers both. -/
theorem hardwareReset : Obligations.HardwareReset := by
  unfold Obligations.HardwareReset
  intro s
  refine ⟨s.hardReset, rfl, fun u hu => ?_⟩
  obtain ⟨r, rfl⟩ : ∃ r : State, u = r.hardReset := by
    rcases hu with rfl | rfl
    · exact ⟨s, rfl⟩
    · exact ⟨State.reset, State.hardReset_reset.symm⟩
  exact ⟨r.hardReset_ctrlWord, r.hardReset_statusWord, OperandRegs.get_reset, r.hardReset_res, r.hardReset_stateLo,
    r.hardReset_stateHi, r.hardReset_elapsed, r.hardReset_inFlight, r.hardReset_op, r.hardReset_irq, rfl, rfl, rfl, rfl,
    rfl, rfl, fun _ => ⟨rfl, rfl⟩⟩

/-- Settles O59: the memories are empty, STATUS shows no error, and the in-flight flag is clear. -/
theorem resetMeetsTheInvariant : Obligations.ResetMeetsTheInvariant := by
  unfold Obligations.ResetMeetsTheInvariant
  exact State.reset.inv_iff.2 ⟨State.reset_memoriesInv, .of_no_error rfl rfl rfl, .of_flight rfl⟩

end
